-- ==== Sys2Proof/Word.lean ====
section
/-! DEFINITION. The word types of PDBD (spec R8, R12, R53, R81, R87, R91). -/

namespace Sys2Proof

/-- One 16-bit bus word, the `u16` of the spec (R8, R12, R56): as wide as `DATA_WIDTH` says (`FixedParams.dataWidth`). -/
abbrev Word := BitVec 16

/-- The 32-bit count operand `N` (R97). -/
abbrev Count := BitVec 32

/-- The 128-bit command word `W` on the `CMD` port (R87). -/
abbrev CommandWord := BitVec 128

/-- The 20-bit pin vector `B = {CS, RS, WR, RD, D[15:0]}` of a bus cycle (R81). -/
abbrev PinVector := BitVec 20

/-- The 72-bit result word on the `RES` port (R91). -/
abbrev ResultWord := BitVec 72

end Sys2Proof
end

