-- ==== Sys2Proof/Syntax.lean ====
section
/-! DEFINITION. The commands of PDBD and its three bus cycles: one constructor for every row of
spec/opcode_table.json (R92, R81), and the two things an instruction can be written in. -/

namespace Sys2Proof

/-- Who may issue a command (R92, R221). -/
inductive AccessLevel
  /-- `PUBLIC`: the host may issue it. -/
  | pub
  /-- `INTERNAL`: only another command's sequence uses it, unless `HOST_LEVEL = INTERNAL`. -/
  | internal
deriving DecidableEq, Repr

/-- The 27 commands of R92, in the table's order, then the three bus cycles of R82 to R84. Operand names are
those of the table's fields. -/
inductive Instr
  /-- `SET_OUTPUT_MODE` (R120). -/
  | setOutputMode
  /-- `SET_INPUT_MODE` (R121). -/
  | setInputMode
  /-- `DRIVE_BUS value` (R122). -/
  | driveBus (value : Word)
  /-- `SAMPLE_BUS` (R123). -/
  | sampleBus
  /-- `TXN_BEGIN` (R124). -/
  | txnBegin
  /-- `TXN_END` (R125). -/
  | txnEnd
  /-- `BACKLIGHT_ON` (R127). -/
  | backlightOn
  /-- `SELECT_REGISTER index` (R141). -/
  | selectRegister (index : Word)
  /-- `WRITE_DATA_WORD data` (R142). -/
  | writeDataWord (data : Word)
  /-- `READ_DATA_WORD` (R143). -/
  | readDataWord
  /-- `WR_PULSE` (R144). -/
  | wrPulse
  /-- `WRITE_REGISTER index, data` (R147). -/
  | writeRegister (index data : Word)
  /-- `READ_REGISTER index` (R148). -/
  | readRegister (index : Word)
  /-- `WRITE_REGISTER_BURST index, data, n` (R146). -/
  | writeRegisterBurst (index data : Word) (count : Count)
  /-- `SET_ROTATION r`, the ordinal of r (R163). -/
  | setRotation (ordinal : Word)
  /-- `LOGICAL_SIZE` (R164). -/
  | logicalSize
  /-- `TO_NATIVE p, size` (R166). -/
  | toNative (px py width height : Word)
  /-- `MAP_RECT tl, br` (R168). -/
  | mapRect (tlx tly brx bry : Word)
  /-- `MAX_BOTTOM_RIGHT` (R165). -/
  | maxBottomRight
  /-- `ROTATION_FROM_ID id` (R161). -/
  | rotationFromId (id : Word)
  /-- `CONSTRUCT` (R181). -/
  | construct
  /-- `INITIALIZE` (R182, R183). -/
  | initialise
  /-- `SET_WINDOW ns, ne` (R184). -/
  | setWindow (xs ys xe ye : Word)
  /-- `RESET_WINDOW` (R185). -/
  | resetWindow
  /-- `SET_POINTER p` (R186). -/
  | setPointer (x y : Word)
  /-- `DRAW_PIXEL x, y, colour` (R187). -/
  | drawPixel (x y colour : Word)
  /-- `FILL_RECTANGLE tl, br, colour` (R188). -/
  | fillRectangle (tlx tly brx bry colour : Word)
  /-- The index-write bus cycle `IDXW` (R82). -/
  | idxw (index : Word)
  /-- The data-write bus cycle `DATW` (R83). -/
  | datw (data : Word)
  /-- The data-read bus cycle `DATR`; its data bits are what PDBD samples (R84). -/
  | datr (data : Word)
deriving DecidableEq, Repr

/-- The two encodings of the spec (R80): a command word on `CMD`, or the pin vector of a bus cycle. -/
inductive Encoded
  /-- A 128-bit command word (R87). -/
  | command (w : CommandWord)
  /-- A 20-bit pin vector (R81). -/
  | busCycle (b : PinVector)
deriving DecidableEq, Repr

end Sys2Proof
end

