-- ==== Sys2Proof/WellFormed.lean ====
section
/-! DEFINITION. What the spec asks of an instruction's operands alone. Every operand is a whole bit field, so only two
commands have an operand that the spec refuses in every state: a burst count of 0 (R97, R146) and a window whose start is
after its end (R184). -/

namespace Sys2Proof

/-- The operand conditions of R97, R146 and R184, as a check. -/
def Instr.wf : Instr → Bool
  | .setOutputMode => true
  | .setInputMode => true
  | .driveBus _ => true
  | .sampleBus => true
  | .txnBegin => true
  | .txnEnd => true
  | .backlightOn => true
  | .selectRegister _ => true
  | .writeDataWord _ => true
  | .readDataWord => true
  | .wrPulse => true
  | .writeRegister _ _ => true
  | .readRegister _ => true
  | .writeRegisterBurst _ _ count => decide (1 ≤ count.toNat)
  | .setRotation _ => true
  | .logicalSize => true
  | .toNative _ _ _ _ => true
  | .mapRect _ _ _ _ => true
  | .maxBottomRight => true
  | .rotationFromId _ => true
  | .construct => true
  | .initialise => true
  | .setWindow xs ys xe ye => decide (xs.toNat ≤ xe.toNat) && decide (ys.toNat ≤ ye.toNat)
  | .resetWindow => true
  | .setPointer _ _ => true
  | .drawPixel _ _ _ => true
  | .fillRectangle _ _ _ _ _ => true
  | .idxw _ => true
  | .datw _ => true
  | .datr _ => true

/-- An instruction whose operands the spec admits in some state. -/
abbrev Instr.WellFormed (i : Instr) : Prop := i.wf = true

end Sys2Proof
end

