-- ==== Sys2Proof/Decode.lean ====
section
/-! DEFINITION. The two encodings: the decoder of command words and bus cycles (R81 to R90, R92, R98), then the encoder
written from the same tables, then the names and levels of R92. -/

namespace Sys2Proof

/-- Why a word spells no instruction (R98). -/
inductive DecodeError
  /-- `OP` is not in the table of R92. -/
  | unassignedOpcode
  /-- `Z` or a field the command does not use is not zero (R89). -/
  | unusedFieldNonzero
  /-- The control bits are none of the three bus cycles (R81, R85). -/
  | noSuchCycle
deriving DecidableEq, Repr

/-- The fields of a command word (R87). -/
structure Fields where
  op : BitVec 8
  z  : BitVec 8 := 0
  a  : Word := 0
  b  : Word := 0
  c  : Word := 0
  d  : Word := 0
  e  : Word := 0
  n  : Count := 0
deriving DecidableEq, Repr

/-- The bit positions of R87. -/
def fieldsOf (w : CommandWord) : Fields where
  op := w.extractLsb' 120 8
  z  := w.extractLsb' 112 8
  a  := w.extractLsb' 96 16
  b  := w.extractLsb' 80 16
  c  := w.extractLsb' 64 16
  d  := w.extractLsb' 48 16
  e  := w.extractLsb' 32 16
  n  := w.extractLsb' 0 32

/-- R89: `Z` and every field the row does not list are zero. The arguments name the fields the row lists. -/
def Fields.unusedZero (f : Fields) (a b c d e n : Bool := false) : Bool :=
  f.z == 0 && (a || f.a == 0) && (b || f.b == 0) && (c || f.c == 0) && (d || f.d == 0) && (e || f.e == 0) && (n || f.n == 0)

/-- An instruction whose unused fields were found zero, or the refusal of the word (R89, R98). -/
def acceptIf (unusedZero : Bool) (i : Instr) : Except DecodeError Instr :=
  if unusedZero then .ok i else .error .unusedFieldNonzero

/-- The opcode map of R92: the opcode picks the row, the row's unused fields are checked (R90), then the operands are
taken from the fields the row lists. -/
def decodeFields (f : Fields) : Except DecodeError Instr :=
  match f.op with
  | 0x01#8 => acceptIf f.unusedZero .setOutputMode
  | 0x02#8 => acceptIf f.unusedZero .setInputMode
  | 0x03#8 => acceptIf (f.unusedZero (a := true)) (.driveBus f.a)
  | 0x04#8 => acceptIf f.unusedZero .sampleBus
  | 0x05#8 => acceptIf f.unusedZero .txnBegin
  | 0x06#8 => acceptIf f.unusedZero .txnEnd
  | 0x07#8 => acceptIf f.unusedZero .backlightOn
  | 0x10#8 => acceptIf (f.unusedZero (a := true)) (.selectRegister f.a)
  | 0x11#8 => acceptIf (f.unusedZero (a := true)) (.writeDataWord f.a)
  | 0x12#8 => acceptIf f.unusedZero .readDataWord
  | 0x13#8 => acceptIf f.unusedZero .wrPulse
  | 0x14#8 => acceptIf (f.unusedZero (a := true) (b := true)) (.writeRegister f.a f.b)
  | 0x15#8 => acceptIf (f.unusedZero (a := true)) (.readRegister f.a)
  | 0x16#8 => acceptIf (f.unusedZero (a := true) (b := true) (n := true)) (.writeRegisterBurst f.a f.b f.n)
  | 0x20#8 => acceptIf (f.unusedZero (a := true)) (.setRotation f.a)
  | 0x21#8 => acceptIf f.unusedZero .logicalSize
  | 0x22#8 => acceptIf (f.unusedZero (a := true) (b := true) (c := true) (d := true)) (.toNative f.a f.b f.c f.d)
  | 0x23#8 => acceptIf (f.unusedZero (a := true) (b := true) (c := true) (d := true)) (.mapRect f.a f.b f.c f.d)
  | 0x24#8 => acceptIf f.unusedZero .maxBottomRight
  | 0x25#8 => acceptIf (f.unusedZero (a := true)) (.rotationFromId f.a)
  | 0x30#8 => acceptIf f.unusedZero .construct
  | 0x31#8 => acceptIf f.unusedZero .initialise
  | 0x32#8 => acceptIf (f.unusedZero (a := true) (b := true) (c := true) (d := true)) (.setWindow f.a f.b f.c f.d)
  | 0x33#8 => acceptIf f.unusedZero .resetWindow
  | 0x34#8 => acceptIf (f.unusedZero (a := true) (b := true)) (.setPointer f.a f.b)
  | 0x35#8 => acceptIf (f.unusedZero (a := true) (b := true) (c := true)) (.drawPixel f.a f.b f.c)
  | 0x36#8 => acceptIf (f.unusedZero (a := true) (b := true) (c := true) (d := true) (e := true))
      (.fillRectangle f.a f.b f.c f.d f.e)
  | _ => .error .unassignedOpcode

/-- The three bus cycles (R82, R83, R84): the control bits `{CS, RS, WR, RD}` pick the cycle. -/
def decodeCycle (b : PinVector) : Except DecodeError Instr :=
  match b.extractLsb' 16 4 with
  | 0b0001#4 => .ok (.idxw (b.extractLsb' 0 16))
  | 0b0101#4 => .ok (.datw (b.extractLsb' 0 16))
  | 0b0110#4 => .ok (.datr (b.extractLsb' 0 16))
  | _ => .error .noSuchCycle

/-- The decoder, total on every 128-bit word and every 20-bit pin vector (R90). -/
def decode : Encoded → Except DecodeError Instr
  | .command w => decodeFields (fieldsOf w)
  | .busCycle b => decodeCycle b

/-- The fields joined into the command word of R87. -/
def Fields.pack (f : Fields) : CommandWord :=
  f.op ++ f.z ++ f.a ++ f.b ++ f.c ++ f.d ++ f.e ++ f.n

/-- The pin vector of a bus cycle (R81): control bits above, data lines below. -/
def packCycle (control : BitVec 4) (data : Word) : PinVector := control ++ data

/-- The encoder: one instruction, one word (R89), written from the table of R92 and the patterns of R82 to R84. -/
def encode : Instr → Encoded
  | .setOutputMode => .command { op := 0x01 : Fields }.pack
  | .setInputMode => .command { op := 0x02 : Fields }.pack
  | .driveBus value => .command { op := 0x03, a := value : Fields }.pack
  | .sampleBus => .command { op := 0x04 : Fields }.pack
  | .txnBegin => .command { op := 0x05 : Fields }.pack
  | .txnEnd => .command { op := 0x06 : Fields }.pack
  | .backlightOn => .command { op := 0x07 : Fields }.pack
  | .selectRegister index => .command { op := 0x10, a := index : Fields }.pack
  | .writeDataWord data => .command { op := 0x11, a := data : Fields }.pack
  | .readDataWord => .command { op := 0x12 : Fields }.pack
  | .wrPulse => .command { op := 0x13 : Fields }.pack
  | .writeRegister index data => .command { op := 0x14, a := index, b := data : Fields }.pack
  | .readRegister index => .command { op := 0x15, a := index : Fields }.pack
  | .writeRegisterBurst index data count => .command { op := 0x16, a := index, b := data, n := count : Fields }.pack
  | .setRotation ordinal => .command { op := 0x20, a := ordinal : Fields }.pack
  | .logicalSize => .command { op := 0x21 : Fields }.pack
  | .toNative px py width height => .command { op := 0x22, a := px, b := py, c := width, d := height : Fields }.pack
  | .mapRect tlx tly brx bry => .command { op := 0x23, a := tlx, b := tly, c := brx, d := bry : Fields }.pack
  | .maxBottomRight => .command { op := 0x24 : Fields }.pack
  | .rotationFromId id => .command { op := 0x25, a := id : Fields }.pack
  | .construct => .command { op := 0x30 : Fields }.pack
  | .initialise => .command { op := 0x31 : Fields }.pack
  | .setWindow xs ys xe ye => .command { op := 0x32, a := xs, b := ys, c := xe, d := ye : Fields }.pack
  | .resetWindow => .command { op := 0x33 : Fields }.pack
  | .setPointer x y => .command { op := 0x34, a := x, b := y : Fields }.pack
  | .drawPixel x y colour => .command { op := 0x35, a := x, b := y, c := colour : Fields }.pack
  | .fillRectangle tlx tly brx bry colour =>
      .command { op := 0x36, a := tlx, b := tly, c := brx, d := bry, e := colour : Fields }.pack
  | .idxw index => .busCycle (packCycle 0b0001 index)
  | .datw data => .busCycle (packCycle 0b0101 data)
  | .datr data => .busCycle (packCycle 0b0110 data)

/-- The bits of an opcode-table row laid out as the hardware takes them: a row of 20 bits (three whole bytes) is a pin
vector, any other row a command word whose bits above `nbits` are zero. A number that does not fit is the all-zero command
word, whose opcode 0x00 is unassigned (R92). -/
def encodedOfTable (nbits w : Nat) : Encoded :=
  if nbits ≤ 24 then
    if w < 2 ^ 20 then .busCycle (BitVec.ofNat 20 w) else .command 0
  else
    if w < 2 ^ 128 then .command (BitVec.ofNat 128 w) else .command 0

/-- The instruction the decoder reads from a table word. -/
def decodeTableWord (nbits w : Nat) : Option Instr :=
  match decode (encodedOfTable nbits w) with
  | .ok i => some i
  | .error _ => none

/-- The mnemonics of R92 and R81, letter for letter. -/
def Instr.mnemonic : Instr → String
  | .setOutputMode => "SET_OUTPUT_MODE"
  | .setInputMode => "SET_INPUT_MODE"
  | .driveBus _ => "DRIVE_BUS"
  | .sampleBus => "SAMPLE_BUS"
  | .txnBegin => "TXN_BEGIN"
  | .txnEnd => "TXN_END"
  | .backlightOn => "BACKLIGHT_ON"
  | .selectRegister _ => "SELECT_REGISTER"
  | .writeDataWord _ => "WRITE_DATA_WORD"
  | .readDataWord => "READ_DATA_WORD"
  | .wrPulse => "WR_PULSE"
  | .writeRegister _ _ => "WRITE_REGISTER"
  | .readRegister _ => "READ_REGISTER"
  | .writeRegisterBurst _ _ _ => "WRITE_REGISTER_BURST"
  | .setRotation _ => "SET_ROTATION"
  | .logicalSize => "LOGICAL_SIZE"
  | .toNative _ _ _ _ => "TO_NATIVE"
  | .mapRect _ _ _ _ => "MAP_RECT"
  | .maxBottomRight => "MAX_BOTTOM_RIGHT"
  | .rotationFromId _ => "ROTATION_FROM_ID"
  | .construct => "CONSTRUCT"
  | .initialise => "INITIALIZE"
  | .setWindow _ _ _ _ => "SET_WINDOW"
  | .resetWindow => "RESET_WINDOW"
  | .setPointer _ _ => "SET_POINTER"
  | .drawPixel _ _ _ => "DRAW_PIXEL"
  | .fillRectangle _ _ _ _ _ => "FILL_RECTANGLE"
  | .idxw _ => "IDXW"
  | .datw _ => "DATW"
  | .datr _ => "DATR"

/-- The level column of R92 (R221). The bus cycles are made only by `INTERNAL` primitives (R82 to R84, R149). -/
def Instr.level : Instr → AccessLevel
  | .setOutputMode => .internal
  | .setInputMode => .internal
  | .driveBus _ => .internal
  | .sampleBus => .internal
  | .txnBegin => .internal
  | .txnEnd => .internal
  | .backlightOn => .internal
  | .selectRegister _ => .internal
  | .writeDataWord _ => .internal
  | .readDataWord => .internal
  | .wrPulse => .internal
  | .writeRegister _ _ => .internal
  | .readRegister _ => .internal
  | .writeRegisterBurst _ _ _ => .internal
  | .setRotation _ => .pub
  | .logicalSize => .pub
  | .toNative _ _ _ _ => .internal
  | .mapRect _ _ _ _ => .internal
  | .maxBottomRight => .pub
  | .rotationFromId _ => .pub
  | .construct => .pub
  | .initialise => .pub
  | .setWindow _ _ _ _ => .internal
  | .resetWindow => .internal
  | .setPointer _ _ => .internal
  | .drawPixel _ _ _ => .pub
  | .fillRectangle _ _ _ _ _ => .pub
  | .idxw _ => .internal
  | .datw _ => .internal
  | .datr _ => .internal

end Sys2Proof
end

