-- ==== Sys2Proof/Config.lean ====
section
/-! DEFINITION. The parameters of R8 and R9, as one record: the values the source fixes, and the parameters it names
without a value; and the free values, as constants without a body. -/

namespace Sys2Proof

/-- The parameters whose value the source fixes (R8), with those values. -/
structure FixedParams where
  /-- `DATA_WIDTH`: the data lines, and the width of every bus word; at the level of types it is the 16 of `Word`. -/
  dataWidth      : Nat := 16
  /-- `NATIVE_W`. -/
  nativeW        : Nat := 240
  /-- `NATIVE_H`. -/
  nativeH        : Nat := 320
  /-- `T_STROBE_US`: low time of a write strobe; from `RD` falling to the sample. -/
  tStrobeUs      : Word := 1
  /-- `T_INTER_US`: between the index write and the data word of a composite. -/
  tInterUs       : Word := 1
  /-- `T_CS_SETUP_US`. -/
  tCsSetupUs     : Word := 1
  /-- `T_CS_HOLD_US`. -/
  tCsHoldUs      : Word := 1
  /-- `T_RESET_SETTLE_MS`. -/
  tResetSettleMs : Word := 130
  /-- `T_OSC_MS`. -/
  tOscMs         : Word := 50
  /-- `T_PWR_LOW_MS`. -/
  tPwrLowMs      : Word := 200
  /-- `T_PWR_STEP_MS`. -/
  tPwrStepMs     : Word := 50
  /-- `DC1_ON`. -/
  dc1On          : Word := 0x0133
  /-- `OSC_START_VALUE`. -/
  oscStartValue  : Word := 1
  /-- `REG_INDEX_MIN`: the populated range's lower end; PDBD checks no index against it (R59). -/
  regIndexMin    : Word := 0x00
  /-- `REG_INDEX_MAX`: the populated range's upper end; PDBD checks no index against it (R59). -/
  regIndexMax    : Word := 0x98
  /-- `BURST`: a fill's word count is a multiple of this. -/
  burst          : Nat := 4
deriving DecidableEq, Repr

/-- `REG.<name>`: the index of each register of the chip that PDBD touches, with the default column of R58 (D20). The
defaults are the ILI932x family's, general knowledge of the spec's writer and not the source's. -/
structure RegMap where
  id                    : Word := 0x00
  oscStart              : Word := 0x00
  driverOutputControl   : Word := 0x01
  driverWaveformControl : Word := 0x02
  entryMode             : Word := 0x03
  resizeControl         : Word := 0x04
  displayControl1       : Word := 0x07
  displayControl2       : Word := 0x08
  displayControl3       : Word := 0x09
  displayControl4       : Word := 0x0A
  rgbIfControl1         : Word := 0x0C
  frameMarkerPosition   : Word := 0x0D
  rgbIfControl2         : Word := 0x0F
  powerControl1         : Word := 0x10
  powerControl2         : Word := 0x11
  powerControl3         : Word := 0x12
  powerControl4         : Word := 0x13
  ramAddrH              : Word := 0x20
  ramAddrV              : Word := 0x21
  gram                  : Word := 0x22
  powerControl7         : Word := 0x29
  gamma                 : Vector Word 10 := #v[0x30, 0x31, 0x32, 0x35, 0x36, 0x37, 0x38, 0x39, 0x3C, 0x3D]
  hStart                : Word := 0x50
  hEnd                  : Word := 0x51
  vStart                : Word := 0x52
  vEnd                  : Word := 0x53
deriving DecidableEq, Repr

/-- `INIT.<name>`: the data words of `INITIALIZE` that the source does not give (R9, R183, D21). -/
structure InitWords where
  driverOutputControl   : Word
  driverWaveformControl : Word
  resizeControl         : Word
  displayControl2       : Word
  displayControl3       : Word
  displayControl4       : Word
  rgbIfControl1         : Word
  frameMarkerPosition   : Word
  rgbIfControl2         : Word
  pwr1Low               : Word
  pwr2Low               : Word
  pwr3Low               : Word
  pwr4Low               : Word
  pwr1Op                : Word
  pwr2Op                : Word
  pwr3Op                : Word
  pwr4Op                : Word
  pwr7Op                : Word
  gamma                 : Vector Word 10
deriving DecidableEq, Repr, Inhabited

/-- The masks of the four entry-mode flags, with the defaults of R96 (D22). -/
structure EntryMasks where
  bgr : Word := 0x1000
  idH : Word := 0x0010
  idV : Word := 0x0020
  am  : Word := 0x0008
deriving DecidableEq, Repr

/-- A level of one line: 0 electrically low, 1 electrically high (R12). -/
inductive Level
  | low
  | high
deriving DecidableEq, Repr

/-- What answers when the data lines are sampled. -/
inductive Partner
  /-- The real chip: any value (R30, R61). -/
  | unconstrained
  /-- The optional reference device of R66, for simulation only. -/
  | reference
deriving DecidableEq, Repr

/-- The parameters of R8, R9 and R99: fixed for one machine, written by no command. -/
structure Config where
  /-- The parameters of R8. -/
  fixed                : FixedParams
  /-- They have the values the source fixes (R8). -/
  fixed_eq             : fixed = {}
  reg                  : RegMap
  init                 : InitWords
  /-- `INIT_TAIL`: the gate-scan and panel-interface writes, in order (R9, R183). -/
  initTail             : List (Word × Word)
  em                   : EntryMasks
  /-- `BL_ACTIVE_LEVEL` (R27, D6). -/
  blActiveLevel        : Level
  /-- How many bits the raw port read has beyond 16: `PORT_WIDTH` is 16 or more (R9, D25). -/
  portExtra            : Nat
  /-- `WINDOW_WRITES_POINTER` (R184, D11). -/
  windowWritesPointer  : Bool
  /-- `HOST_LEVEL` (R99, D18). -/
  hostLevel            : AccessLevel
  /-- Which partner answers a sample (R61, R66). -/
  partner              : Partner
deriving DecidableEq, Repr

/-- `PORT_WIDTH` (R9, R123). -/
abbrev Config.portWidth (c : Config) : Nat := 16 + c.portExtra

/-- FREE VALUE. The `INIT.<name>` words of the machine: the spec gives no default (R9, D21). -/
opaque Config.openInit : InitWords

/-- FREE VALUE. The `INIT_TAIL` of the machine: the spec gives no default (R9, D21). -/
opaque Config.openInitTail : List (Word × Word)

/-- FREE VALUE. What the raw port of the given width carries at the n-th draw (R30, R61, R123; U2, U12). -/
opaque Config.freePort (width : Nat) : Nat → BitVec width

/-- FREE VALUE. The n-th unspecified coordinate word (R171; U1). -/
opaque Config.freeWord : Nat → Word

/-- The default configuration: every default the spec gives, the free constants where it gives none. -/
def Config.default : Config where
  fixed := {}
  fixed_eq := rfl
  reg := {}
  init := Config.openInit
  initTail := Config.openInitTail
  em := {}
  blActiveLevel := .high
  portExtra := 0
  windowWritesPointer := true
  hostLevel := .pub
  partner := .unconstrained

end Sys2Proof
end

