-- ==== Sys2Proof/Machine/State.lean ====
section
/-! DEFINITION. The state of PDBD (spec/10_state.md), its reset value (R38), and the reasons a step can stop. -/

namespace Sys2Proof.Machine

/-- A latch of the spec: a value, or ⊥ ("no value yet", never written since reset, R12). ⊥ is one of the values R23 to R29
and R35 give the latch, and the reset value R38 gives it. -/
inductive Latch (α : Type)
  | bot
  | val (a : α)
deriving DecidableEq, Repr

/-- The two modes of the data lines: `OUT` push-pull outputs, `IN` floating inputs (R28). -/
inductive DataMode
  | out
  | inp
deriving DecidableEq, Repr

/-- The five single output lines (R20, R34). -/
inductive Line
  | cs
  | rs
  | wr
  | rd
  | bl
deriving DecidableEq, Repr

/-- The events of R34: everything PDBD does to the outside. -/
inductive Event
  /-- A latch write drives the line, also when the level does not change. -/
  | pin (l : Line) (v : Level)
  /-- The data lines switch mode, also when the mode does not change. -/
  | dir (m : DataMode)
  /-- `DOUT` is loaded; all 16 lines change together (R129). -/
  | drive (v : Word)
  /-- The data lines were read and gave `v`. -/
  | sample (v : Word)
  /-- The Timing Source blocked for at least `n` microseconds (R223, R252). -/
  | delayUs (n : Word)
  /-- The Timing Source blocked for at least `n` milliseconds (R223, R252). -/
  | delayMs (n : Word)
deriving DecidableEq, Repr

/-- The four rotations, in the order of their ordinals (R31, R160). -/
inductive Rotation
  | r0
  | r90
  | r180
  | r270
deriving DecidableEq, Repr

/-- `LIFECYCLE` (R32). -/
inductive Lifecycle
  | unconstructed
  | constructed
  | initialised
deriving DecidableEq, Repr

/-- The four error kinds (R210). -/
inductive ErrorKind
  /-- Reserved for `CONSTRUCT`; no rule produces it (R211). -/
  | hardwareEnableFailure
  /-- Reserved for `INITIALIZE`; no rule produces it (R212). -/
  | initializationFailure
  /-- `FILL_RECTANGLE` with corners out of order (R213). -/
  | invalidWindow
  /-- A numeric rotation of 4 or more (R214). -/
  | invalidRotationId
deriving DecidableEq, Repr

/-- The value of an `Ok` result (R35). -/
inductive Value
  | unit
  | word (v : Word)
  | size (width height : Word)
  | point (x y : Word)
  | rect (xs ys xe ye : Word)
  | rotation (r : Rotation)
deriving DecidableEq, Repr

/-- How a command ends (R35). -/
inductive Result
  | ok (v : Value)
  | err (k : ErrorKind)
deriving DecidableEq, Repr

/-- The latches of the lines PDBD owns (R20, R23 to R29). -/
structure Pins where
  /-- `CS` (R23): low is asserted. -/
  cs   : Latch Level
  /-- `RS` (R24): low is the command phase, high the data phase. -/
  rs   : Latch Level
  /-- `WR` (R25): idle high. -/
  wr   : Latch Level
  /-- `RD` (R26): idle high. -/
  rd   : Latch Level
  /-- `BL` (R27): high is backlight enabled (the logical enable). -/
  bl   : Latch Level
  /-- `DIR` (R28). -/
  dir  : Latch DataMode
  /-- `DOUT` (R29). -/
  dout : Latch Word
deriving DecidableEq, Repr

/-- The latches at reset: no value yet (R38). -/
def Pins.reset : Pins where
  cs := .bot
  rs := .bot
  wr := .bot
  rd := .bot
  bl := .bot
  dir := .bot
  dout := .bot

/-- The whole machine. -/
structure State where
  /-- `CS`, `RS`, `WR`, `RD`, `BL`, `DIR`, `DOUT` (R23 to R29). -/
  pins        : Pins
  /-- `ROT` (R31). -/
  rot         : Rotation
  /-- `LIFECYCLE` (R32). -/
  lifecycle   : Lifecycle
  /-- `TXN_OPEN` (R33). -/
  txnOpen     : Bool
  /-- A `SELECT_REGISTER` ran earlier in the open transaction (R100). The model's own bookkeeping. -/
  txnSelected : Bool
  /-- A `WRITE_DATA_WORD` ran earlier in the open transaction, with no `READ_DATA_WORD` or `SELECT_REGISTER` since (R100,
  R144). The model's own bookkeeping. -/
  txnLoaded   : Bool
  /-- `RESULT` (R35). -/
  result      : Latch Result
  /-- The events since reset, oldest first (R34). -/
  trace       : List Event
  /-- What the host has still to issue, first one first (R20, R256). The model's own holding place of the input. -/
  requests    : List Encoded
  /-- How many free values have been drawn. The model's own counter: no statement rests on its value. -/
  draws       : Nat
  /-- The parameters; no command writes them (R36). -/
  cfg         : Config
deriving DecidableEq, Repr

/-- The machine right after reset (R38, R241). -/
def State.reset : State where
  pins := Pins.reset
  rot := .r0
  lifecycle := .unconstructed
  txnOpen := false
  txnSelected := false
  txnLoaded := false
  result := .bot
  trace := []
  requests := []
  draws := 0
  cfg := Config.default

/-- The reasons a step can stop with a fault: none. PDBD has no fault mechanism and every command terminates (R228;
93_implementation_defined.md section 1). No meaning raises one, so there is nothing safe or unsafe to say. -/
inductive Fault
deriving DecidableEq, Repr

/-- The reasons PDBD's model refuses a command: no event, no state change (R98, R99, R100). Each one is safe: the model
stops where the source gives the command no behaviour. -/
inductive Refusal
  /-- Raised by `exec` for an instruction without a meaning in the model; safe. No arm raises it. -/
  | notModelled (mnemonic : String)
  /-- Raised by `step` for a word that spells no instruction (R98); safe. -/
  | illegalWord (why : DecodeError)
  /-- Raised by `step` for an `INTERNAL` instruction while `HOST_LEVEL = PUBLIC` (R99); safe. -/
  | internalCommand
  /-- Raised by every command but `CONSTRUCT` before construction (R100, R222); safe. -/
  | notConstructed
  /-- Raised by `CONSTRUCT` after construction (R181); safe. -/
  | alreadyConstructed
  /-- Raised by `DRAW_PIXEL`, `FILL_RECTANGLE` and `SET_ROTATION` before a completed `INITIALIZE` (R100, R222); safe. -/
  | notInitialised
  /-- Raised by `DRIVE_BUS` and every write sequence while the lines are not outputs (R100); safe. -/
  | notOutputMode
  /-- Raised by `SAMPLE_BUS` while the lines are not inputs (R100); safe. -/
  | notInputMode
  /-- Raised by the protocol primitives and `TXN_END` outside a transaction (R100); safe. -/
  | noTransaction
  /-- Raised by `TXN_BEGIN` and every command that opens a transaction inside one (R100); safe. -/
  | nestedTransaction
  /-- Raised by `WRITE_DATA_WORD`, `READ_DATA_WORD` and `WR_PULSE` while `RS` is not 1 (R142 to R144); safe. -/
  | notDataPhase
  /-- Raised by `WRITE_DATA_WORD`, `READ_DATA_WORD` and `WR_PULSE` with no select in the transaction (R100); safe. -/
  | noRegisterSelected
  /-- Raised by `WR_PULSE` with no data word loaded (R100, R144); safe. -/
  | noDataWord
  /-- Raised by `WRITE_REGISTER_BURST` with a count of 0 (R146); safe. -/
  | zeroCount
  /-- Raised by `SET_WINDOW` with start after end (R184); safe. -/
  | windowNotOrdered
deriving DecidableEq, Repr

/-- What a meaning answers. -/
abbrev Answer := Host.Outcome State Fault Refusal

end Sys2Proof.Machine
end

