-- ==== Sys2Proof/Machine/Operands.lean ====
section
/-! DEFINITION. The operand computations of the mapper and of the fill (spec/42_rotation_mapper.md, R189): rotations, the
entry-mode word, sizes, the coordinate transform, the rectangle map and the fill count. -/

namespace Sys2Proof.Machine

/-- A point, in the unbounded integers (R14, R170); every coordinate of an operand is non-negative. -/
structure Point where
  x : Nat
  y : Nat
deriving DecidableEq, Repr

/-- A size (R14). -/
structure Size where
  width  : Nat
  height : Nat
deriving DecidableEq, Repr

/-- A point from two operand fields (R88, R93). -/
def Point.ofWords (x y : Word) : Point := { x := x.toNat, y := y.toNat }

/-- A size from two operand fields. -/
def Size.ofWords (width height : Word) : Size := { width := width.toNat, height := height.toNat }

/-- The ordinals of R160. -/
def Rotation.ord : Rotation → Nat
  | .r0 => 0
  | .r90 => 1
  | .r180 => 2
  | .r270 => 3

/-- The rotation with the given ordinal, if there is one: not reduced mod 4 (R161). -/
def Rotation.ofId : Nat → Option Rotation
  | 0 => some .r0
  | 1 => some .r90
  | 2 => some .r180
  | 3 => some .r270
  | _ => none

/-- The rotation whose ordinal is the number mod 4 (R160: "ordinal arithmetic mod 4"). -/
def Rotation.ofOrd (n : Nat) : Rotation :=
  match n % 4 with
  | 0 => .r0
  | 1 => .r90
  | 2 => .r180
  | _ => .r270

/-- Adding rotations is adding ordinals mod 4 (R160). -/
def Rotation.add (r q : Rotation) : Rotation := Rotation.ofOrd (Rotation.ord r + Rotation.ord q)

/-- The inverse: the rotation with ordinal `(4 - ord r) mod 4` (R160). -/
def Rotation.inv (r : Rotation) : Rotation := Rotation.ofOrd (4 - Rotation.ord r)

/-- The entry-mode word `EM(r)` (R162): the bitwise OR of the masks of the flags the rotation selects (R96). -/
def entryModeWord (em : EntryMasks) : Rotation → Word
  | .r0 => em.idH ||| em.idV ||| em.bgr
  | .r90 => em.am ||| em.idV ||| em.bgr
  | .r180 => em.bgr
  | .r270 => em.am ||| em.idH ||| em.bgr

/-- `(W, H)` (R8). -/
def nativeSize (c : Config) : Size := { width := c.fixed.nativeW, height := c.fixed.nativeH }

/-- `LOGICAL_SIZE` (R164): native for `R0` and `R180`, swapped for `R90` and `R270`. -/
def logicalSize (c : Config) (r : Rotation) : Size :=
  match r with
  | .r0 => nativeSize c
  | .r90 => { width := (nativeSize c).height, height := (nativeSize c).width }
  | .r180 => nativeSize c
  | .r270 => { width := (nativeSize c).height, height := (nativeSize c).width }

/-- The point lies in the rectangle from (0, 0) of the given size. -/
abbrev Point.within (p : Point) (s : Size) : Prop := p.x < s.width ∧ p.y < s.height

/-- The transform `TO_NATIVE` (R166). Where `Point.mapped` holds no subtraction goes below zero. -/
def toNativePoint (r : Rotation) (p : Point) (s : Size) : Point :=
  match r with
  | .r0 => { x := p.x, y := p.y }
  | .r90 => { x := s.width - 1 - p.y, y := p.x }
  | .r180 => { x := s.width - 1 - p.x, y := s.height - 1 - p.y }
  | .r270 => { x := p.y, y := s.height - 1 - p.x }

/-- No subtraction of the transform goes below zero (R166, R170). -/
def Point.noUnderflow (r : Rotation) (p : Point) (s : Size) : Bool :=
  match r with
  | .r0 => true
  | .r90 => decide (p.y < s.width)
  | .r180 => decide (p.x < s.width ∧ p.y < s.height)
  | .r270 => decide (p.x < s.height)

/-- The way back of the round trip (R169): the size passed is the logical size of the rotation whose inverse is in force,
and the point is a native one. -/
abbrev Point.wayBack (c : Config) (r : Rotation) (p : Point) (s : Size) : Prop :=
  s = logicalSize c (Rotation.inv r) ∧ p.within (nativeSize c)

/-- The points for which the spec states the result of the transform: no subtraction goes below zero (R166), and the point
lies in the logical rectangle of the rotation in force (R171), whatever the size; or it is on the way back of the round trip
(R169), the one use outside that rectangle for which a rule states the result. DEDUCED (log entry 11). -/
abbrev Point.mapped (c : Config) (r : Rotation) (p : Point) (s : Size) : Prop :=
  Point.noUnderflow r p s = true ∧ (p.within (logicalSize c r) ∨ Point.wayBack c r p s)

/-- A rectangle: two corners, both inclusive (R14). -/
structure Rect where
  ns : Point
  ne : Point
deriving DecidableEq, Repr

/-- `MAP_RECT` (R168): the corners are mapped against the native size and ordered on each axis. -/
def mapRectangle (c : Config) (r : Rotation) (tl br : Point) : Rect :=
  let a := toNativePoint r tl (nativeSize c)
  let b := toNativePoint r br (nativeSize c)
  { ns := { x := min a.x b.x, y := min a.y b.y }, ne := { x := max a.x b.x, y := max a.y b.y } }

/-- Both corners lie in the logical rectangle of the rotation (R171). -/
abbrev cornersWithin (c : Config) (r : Rotation) (tl br : Point) : Prop :=
  tl.within (logicalSize c r) ∧ br.within (logicalSize c r)

/-- The fill count `n = 4 * ceil(w * h / 4)`, 4 being `BURST`, in the unbounded naturals (R189, C4). -/
def fillCount (c : Config) (w h : Nat) : Nat := c.fixed.burst * ((w * h + (c.fixed.burst - 1)) / c.fixed.burst)

/-- A coordinate as the 16-bit word the bus carries (R93). -/
def coordWord (n : Nat) : Word := BitVec.ofNat 16 n

end Sys2Proof.Machine
end

