-- ==== Sys2Proof/Machine/Flags.lean ====
section
/-! DEFINITION. PDBD has no status flags (R35): what a command leaves is its `RESULT`. Here it is reported, and laid out as
the word of the `RES` port (R91). -/

namespace Sys2Proof.Machine

/-- End a command with a result: `RESULT` is overwritten by every command (R35). -/
def conclude (r : Result) (s : State) : Answer := .next { s with result := .val r }

/-- End a command with an error and nothing else changed (R214, R213, R219). -/
def raise (k : ErrorKind) (s : State) : Answer := conclude (.err k) s

/-- The `STATUS` codes of R210. -/
def ErrorKind.code : ErrorKind → BitVec 8
  | .hardwareEnableFailure => 1
  | .initializationFailure => 2
  | .invalidWindow => 3
  | .invalidRotationId => 4

/-- `{STATUS, V3, V2, V1, V0}` (R91). -/
def packResult (status : BitVec 8) (v3 v2 v1 v0 : Word) : ResultWord := status ++ v3 ++ v2 ++ v1 ++ v0

/-- The result word on `RES` (R91). -/
def Result.word : Result → ResultWord
  | .err k => packResult k.code 0 0 0 0
  | .ok .unit => packResult 0 0 0 0 0
  | .ok (.word v) => packResult 0 0 0 0 v
  | .ok (.size w h) => packResult 0 0 0 h w
  | .ok (.point x y) => packResult 0 0 0 y x
  | .ok (.rect xs ys xe ye) => packResult 0 ye xe ys xs
  | .ok (.rotation r) => packResult 0 0 0 0 (BitVec.ofNat 16 (Rotation.ord r))

/-- The `RES` port: the result word of the finished command, once there is one (R20, R91). -/
def State.res (s : State) : Latch ResultWord :=
  match s.result with
  | .val r => .val r.word
  | .bot => .bot

end Sys2Proof.Machine
end

