-- ==== Sys2Proof/Machine/Lines.lean ====
section
/-! DEFINITION. What an event does to the latches of the lines (R13, R34), and the lines as seen from outside (R20, R81). -/

namespace Sys2Proof.Machine

/-- The latches after one event (R13: a line write sets the latch it names; a sample and a delay set none). -/
def Pins.apply (p : Pins) : Event → Pins
  | .pin .cs v => { p with cs := .val v }
  | .pin .rs v => { p with rs := .val v }
  | .pin .wr v => { p with wr := .val v }
  | .pin .rd v => { p with rd := .val v }
  | .pin .bl v => { p with bl := .val v }
  | .dir m => { p with dir := .val m }
  | .drive v => { p with dout := .val v }
  | .sample _ => p
  | .delayUs _ => p
  | .delayMs _ => p

/-- The latches after a list of events, in order (R62). -/
def Pins.run (p : Pins) (es : List Event) : Pins := es.foldl Pins.apply p

/-- A level as a bit (R12). -/
def Level.toBit : Level → BitVec 1
  | .low => 0
  | .high => 1

/-- The other level. -/
def Level.not : Level → Level
  | .low => .high
  | .high => .low

/-- The word on the data lines while PDBD drives them: `DOUT` when `DIR = OUT`, else nothing (R20, R29, R53). -/
def Pins.dataLines (p : Pins) : Latch Word :=
  match p.dir with
  | .val .out => p.dout
  | .val .inp => .bot
  | .bot => .bot

/-- The pin vector `B = {CS, RS, WR, RD, D}` with `d` on the data lines, when every control line has a level (R81). -/
def Pins.vector (p : Pins) (d : Word) : Option PinVector :=
  match p.cs, p.rs, p.wr, p.rd with
  | .val cs, .val rs, .val wr, .val rd =>
      some (Level.toBit cs ++ Level.toBit rs ++ Level.toBit wr ++ Level.toBit rd ++ d)
  | _, _, _, _ => none

/-- The electrical level of the backlight line: `BL_ACTIVE_LEVEL` while `BL` is 1 (R27, R127, D6). -/
def Pins.backlightLevel (p : Pins) (active : Level) : Latch Level :=
  match p.bl with
  | .val .high => .val active
  | .val .low => .val (Level.not active)
  | .bot => .bot

end Sys2Proof.Machine
end

