-- ==== Sys2Proof/Machine/RefDevice.lean ====
section
/-! DEFINITION. The optional reference device of R66, for simulation only: what it holds is a function of the trace it
watches, so it is no state of PDBD, and no statement depends on it. -/

namespace Sys2Proof.Machine

/-- The device's state (R66). `regs` is the partial map, sorted by index with no repeats. -/
structure RefDevice where
  sel     : Latch Word
  regs    : List (Nat × Word)
  gramLog : List Word
  active  : Bool
deriving DecidableEq, Repr

/-- What the device holds before the first event: not active, nothing selected, an empty map and an empty log.
DESIGN CHOICE (log entry 13): R66 gives the device no initial value. -/
def RefDevice.blank : RefDevice where
  sel := .bot
  regs := []
  gramLog := []
  active := false

/-- The partial map with the index set to the word, in sorted form. -/
def setReg (index : Nat) (w : Word) : List (Nat × Word) → List (Nat × Word)
  | [] => [(index, w)]
  | (j, v) :: rest =>
      if index < j then (index, w) :: (j, v) :: rest
      else if index = j then (index, w) :: rest
      else (j, v) :: setReg index w rest

/-- The word the partial map holds at the index. -/
def getReg (index : Nat) : List (Nat × Word) → Option Word
  | [] => none
  | (j, v) :: rest => if index = j then some v else getReg index rest

/-- The canonical form of the partial map: indices strictly rising. -/
abbrev regsWf (regs : List (Nat × Word)) : Prop := regs.Pairwise (fun a b => a.1 < b.1)

/-- A word latched at the rising edge of `WR` (R66): `RS` low selects, `RS` high writes the selected register. With `RS` at
⊥, of which R66 says nothing, the word is dropped: DESIGN CHOICE (log entry 13). -/
def RefDevice.latch (gram : Word) (rs : Latch Level) (w : Word) (d : RefDevice) : RefDevice :=
  match rs with
  | .val .low => { d with sel := .val w }
  | .val .high =>
      match d.sel with
      | .bot => d
      | .val i =>
          if i = gram then { d with gramLog := d.gramLog ++ [w] }
          else { d with regs := setReg i.toNat w d.regs }
  | .bot => d

/-- What the device does on one event, `p` being the lines just before it (R66). With `DOUT` at ⊥, of which R66 says
nothing, no word is latched: DESIGN CHOICE (log entry 13). -/
def RefDevice.observe (gram : Word) (p : Pins) (d : RefDevice) : Event → RefDevice
  | .pin .cs .low => { d with active := true }
  | .pin .cs .high => { d with active := false }
  | .pin .wr .high =>
      if p.wr = .val .low ∧ d.active = true ∧ p.dir = .val .out then
        match p.dout with
        | .val w => d.latch gram p.rs w
        | .bot => d
      else d
  | _ => d

/-- The device after a list of events. -/
def RefDevice.watchFrom (gram : Word) : Pins → RefDevice → List Event → RefDevice
  | _, d, [] => d
  | p, d, e :: es => RefDevice.watchFrom gram (p.apply e) (d.observe gram p e) es

/-- The device after the events since reset. -/
def RefDevice.watch (gram : Word) (trace : List Event) : RefDevice :=
  RefDevice.watchFrom gram Pins.reset RefDevice.blank trace

/-- What the device answers to a sample, if it defines an answer (R66). -/
def RefDevice.answer (d : RefDevice) (p : Pins) : Option Word :=
  if d.active = true ∧ p.rd = .val .low ∧ p.rs = .val .high ∧ p.dir = .val .inp then
    match d.sel with
    | .val i => getReg i.toNat d.regs
    | .bot => none
  else none

end Sys2Proof.Machine
end

