-- ==== Sys2Proof/Machine/Ops.lean ====
section
/-! DEFINITION. The named operations every meaning is made of: emitting events, the preconditions of R100, the sequences of
the Parallel Bus and of the Register Protocol, the transaction bracket, and the pointer and window writes. -/

namespace Sys2Proof.Machine

/-! ### Preconditions -/

/-- A precondition of a command: when it fails the command is refused, with no event and no state change (R100). -/
def require (p : Prop) [Decidable p] (r : Refusal) (k : Answer) : Answer := if p then k else .refused r

/-- Every command but `CONSTRUCT` needs a constructed PDBD (R100, R222). -/
def whenConstructed (s : State) (k : Answer) : Answer := require (s.lifecycle ≠ .unconstructed) .notConstructed k

/-- Drawing and host-issued `SET_ROTATION` need a completed `INITIALIZE` (R100, R222). -/
def whenInitialised (s : State) (k : Answer) : Answer :=
  whenConstructed s (require (s.lifecycle = .initialised) .notInitialised k)

/-- The protocol primitives run inside a transaction (R100, R140). -/
def whenInTransaction (s : State) (k : Answer) : Answer :=
  whenConstructed s (require (s.txnOpen = true) .noTransaction k)

/-- The data-cycle primitives need the data phase and a select in the same transaction (R100, R142, R143, R144). -/
def whenSelected (s : State) (k : Answer) : Answer :=
  require (s.pins.rs = .val .high) .notDataPhase (require (s.txnSelected = true) .noRegisterSelected k)

/-- A write sequence needs the lines as outputs (R100, R244). -/
def whenOutput (s : State) (k : Answer) : Answer := require (s.pins.dir = .val .out) .notOutputMode k

/-- A transaction is not opened inside another (R100, R124). -/
def whenNoTransaction (s : State) (k : Answer) : Answer := require (s.txnOpen = false) .nestedTransaction k

/-- What every composite needs before its first event: no transaction open (`TXN_BEGIN`) and the lines as outputs
(`SELECT_REGISTER`) (R100). Both keep holding from one composite to the next. -/
def whenBusFree (s : State) (k : Answer) : Answer := whenNoTransaction s (whenOutput s k)

/-! ### Events and free values -/

/-- Emit events: each sets the latch it names and joins the trace (R13, R34). -/
def emit (es : List Event) (s : State) : State := { s with pins := s.pins.run es, trace := s.trace ++ es }

/-- Draw one unspecified coordinate word (R171). -/
def drawWord (s : State) : Word × State := (Config.freeWord s.draws, { s with draws := s.draws + 1 })

/-- The value of a sample: the raw port value truncated to `DATA_WIDTH` bits, `trunc_16` (R123), which is a free draw (R61); with the reference device
selected, the device's answer where it defines one (R66). -/
def sampledValue (s : State) : Word :=
  let v := ((Config.freePort s.cfg.portWidth s.draws).setWidth s.cfg.fixed.dataWidth).setWidth 16
  match s.cfg.partner with
  | .unconstrained => v
  | .reference => ((RefDevice.watch s.cfg.reg.gram s.trace).answer s.pins).getD v

/-! ### Parallel Bus sequences (spec/40_parallel_bus.md) -/

/-- `DIR <- OUT` (R120). -/
def setOutputMode (s : State) : State := emit [.dir .out] s

/-- `DIR <- IN` (R121). -/
def setInputMode (s : State) : State := emit [.dir .inp] s

/-- `DOUT <- value` (R122). -/
def driveBus (value : Word) (s : State) : State := emit [.drive value] s

/-- `v := Sample()` (R123): one draw per sample. -/
def sampleBus (s : State) : Word × State :=
  let v := sampledValue s
  (v, { emit [.sample v] s with draws := s.draws + 1 })

/-- `DelayUs(n)` (R223). -/
def delayUs (n : Word) (s : State) : State := emit [.delayUs n] s

/-- `DelayMs(n)` (R223). -/
def delayMs (n : Word) (s : State) : State := emit [.delayMs n] s

/-- `BL <- 1` (R127). -/
def backlightOn (s : State) : State := emit [.pin .bl .high] s

/-- `TXN_BEGIN` (R124): idle levels in the listed order, chip-select low, the setup delay. -/
def txnBegin (s : State) : State :=
  { emit [.pin .rs .high, .pin .rd .high, .pin .wr .high, .pin .cs .low, .delayUs s.cfg.fixed.tCsSetupUs] s with
    txnOpen := true, txnSelected := false, txnLoaded := false }

/-- `TXN_END` (R125): the hold delay, chip-select high. -/
def txnEnd (s : State) : State :=
  { emit [.delayUs s.cfg.fixed.tCsHoldUs, .pin .cs .high] s with txnOpen := false, txnSelected := false, txnLoaded := false }

/-- `WITH_TRANSACTION { S }` (R126, R216): `TXN_END` runs whatever the result of S is, and the result is returned
unchanged. -/
def withTransaction (body : State → Result × State) (s : State) : Result × State :=
  let (r, s1) := body (txnBegin s)
  (r, txnEnd s1)

/-! ### Register Protocol sequences (spec/41_register_protocol.md) -/

/-- `STROBE_WR` (R103): the body of `WR_PULSE` and the strobe of every write. -/
def strobeWr (c : Config) : List Event := [.pin .wr .low, .delayUs c.fixed.tStrobeUs, .pin .wr .high]

/-- `SELECT_REGISTER` (R141). -/
def selectRegister (index : Word) (s : State) : State :=
  { emit ([.pin .rs .low, .drive index] ++ strobeWr s.cfg ++ [.pin .rs .high]) s with txnSelected := true, txnLoaded := false }

/-- `WRITE_DATA_WORD` (R142). -/
def writeDataWord (data : Word) (s : State) : State :=
  { emit ([.drive data] ++ strobeWr s.cfg) s with txnLoaded := true }

/-- A data-read cycle whose sample is taken by `take` while `RD` is low (R84, R143). -/
def readCycle (take : State → Word × State) (s : State) : Word × State :=
  let (v, s1) := take (emit [.dir .inp, .pin .rd .low, .delayUs s.cfg.fixed.tStrobeUs] s)
  (v, { emit [.pin .rd .high, .dir .out] s1 with txnLoaded := false })

/-- `READ_DATA_WORD` (R143). -/
def readDataWord (s : State) : Word × State := readCycle sampleBus s

/-- `WR_PULSE` (R144). -/
def wrPulse (s : State) : State := emit (strobeWr s.cfg) s

/-- `repeat n times: WR_PULSE` (R146). -/
def wrPulses (n : Nat) (s : State) : State := emit (List.replicate n (strobeWr s.cfg)).flatten s

/-- `WRITE_REGISTER` (R147), `MemWrite(index, 2, data)`. -/
def writeRegister (index data : Word) (s : State) : Result × State :=
  withTransaction (fun t => (.ok .unit, writeDataWord data (delayUs s.cfg.fixed.tInterUs (selectRegister index t)))) s

/-- `READ_REGISTER` (R148), `MemRead(index, 2)`. -/
def readRegister (index : Word) (s : State) : Result × State :=
  withTransaction (fun t =>
    let (v, t1) := readDataWord (delayUs s.cfg.fixed.tInterUs (selectRegister index t))
    (.ok (.word v), t1)) s

/-- `WRITE_REGISTER_BURST` with a count of at least 1 (R146). -/
def writeRegisterBurst (index data : Word) (n : Nat) (s : State) : Result × State :=
  withTransaction (fun t =>
    (.ok .unit, wrPulses (n - 1) (writeDataWord data (delayUs s.cfg.fixed.tInterUs (selectRegister index t))))) s

/-! ### Accesses of the sequencer (spec/43_display_sequencer.md) -/

/-- One step of a fixed access list (R183). -/
inductive Access
  | write (index data : Word)
  | read (index : Word)
  | waitMs (n : Word)
deriving DecidableEq, Repr

/-- Perform one access; nothing depends on the value a read gives (R61, R183). -/
def perform (s : State) : Access → State
  | .write index data => (writeRegister index data s).2
  | .read index => (readRegister index s).2
  | .waitMs n => delayMs n s

/-- Perform accesses in order. -/
def performAll (as : List Access) (s : State) : State := as.foldl perform s

/-- `SET_POINTER` (R186): the horizontal register first. -/
def pointerAccesses (reg : RegMap) (x y : Word) : List Access := [.write reg.ramAddrH x, .write reg.ramAddrV y]

/-- The four window writes in the order of R184, then the pointer pair if `WINDOW_WRITES_POINTER`. -/
def windowAccesses (c : Config) (xs ys xe ye px py : Word) : List Access :=
  [.write c.reg.hStart xs, .write c.reg.hEnd xe, .write c.reg.vStart ys, .write c.reg.vEnd ye] ++
    (if c.windowWritesPointer then pointerAccesses c.reg px py else [])

/-- `SET_POINTER p` (R186). -/
def setPointer (x y : Word) (s : State) : State := performAll (pointerAccesses s.cfg.reg x y) s

/-- `SET_WINDOW ns, ne` (R184): the pointer is set to `ns`. -/
def setWindow (xs ys xe ye : Word) (s : State) : State := performAll (windowAccesses s.cfg xs ys xe ye xs ys) s

/-- `RESET_WINDOW` (R185): the full native extent; `ROT` is not read. -/
def resetWindow (s : State) : State :=
  setWindow 0 0 (coordWord (s.cfg.fixed.nativeW - 1)) (coordWord (s.cfg.fixed.nativeH - 1)) s

/-- The effect of `SET_ROTATION` on a legal rotation (R163): store, then write the entry-mode register. -/
def applyRotation (r : Rotation) (s : State) : State :=
  (writeRegister s.cfg.reg.entryMode (entryModeWord s.cfg.em r) { s with rot := r }).2

/-- `TO_NATIVE` as words (R166): the formula where the spec states the result, else an unspecified point (R171). -/
def mapPoint (p : Point) (size : Size) (s : State) : (Word × Word) × State :=
  if Point.mapped s.cfg s.rot p size then
    let q := toNativePoint s.rot p size
    ((coordWord q.x, coordWord q.y), s)
  else
    let (x, s1) := drawWord s
    let (y, s2) := drawWord s1
    ((x, y), s2)

/-- The four coordinate words of a mapped rectangle. -/
structure RectWords where
  xs : Word
  ys : Word
  xe : Word
  ye : Word
deriving DecidableEq, Repr

/-- The words of a rectangle of points. -/
def Rect.words (r : Rect) : RectWords where
  xs := coordWord r.ns.x
  ys := coordWord r.ns.y
  xe := coordWord r.ne.x
  ye := coordWord r.ne.y

/-- An unspecified rectangle: four free words (R171). -/
def drawRect (s : State) : RectWords × State :=
  let (xs, s1) := drawWord s
  let (ys, s2) := drawWord s1
  let (xe, s3) := drawWord s2
  let (ye, s4) := drawWord s3
  ({ xs := xs, ys := ys, xe := xe, ye := ye }, s4)

/-- `MAP_RECT` as words (R168): the mapped rectangle where both corners lie in the logical rectangle, else an unspecified
rectangle (R171). -/
def mapRect (tl br : Point) (s : State) : RectWords × State :=
  if cornersWithin s.cfg s.rot tl br then ((mapRectangle s.cfg s.rot tl br).words, s) else drawRect s

/-- The window writes of a fill (R188): `SET_WINDOW` of the mapped rectangle; where a corner is outside the logical
rectangle, the same writes with an unspecified word in each (R171). -/
def fillWindow (tl br : Point) (s : State) : State :=
  let (q, s1) := mapRect tl br s
  if cornersWithin s.cfg s.rot tl br then setWindow q.xs q.ys q.xe q.ye s1
  else
    let (px, s2) := drawWord s1
    let (py, s3) := drawWord s2
    performAll (windowAccesses s3.cfg q.xs q.ys q.xe q.ye px py) s3

/-- End a command with the result of a sequence. -/
def concludeWith (p : Result × State) : Answer := conclude p.1 p.2

end Sys2Proof.Machine
end

