-- ==== Sys2Proof/Machine/BusCycle.lean ====
section
/-! DEFINITION. The meanings of the three bus-cycle rows of the opcode table (R81 to R86): a cycle is performed by the
sequence of the primitive that produces it, under that primitive's preconditions. DESIGN CHOICE (log entry 8). -/

namespace Sys2Proof.Machine

/-- `IDXW index` (R82), "produced only by `SELECT_REGISTER`". -/
def execIdxw (index : Word) (s : State) : Answer :=
  whenInTransaction s (whenOutput s (conclude (.ok .unit) (selectRegister index s)))

/-- `DATW data` (R83), the cycle of `WRITE_DATA_WORD`. -/
def execDatw (data : Word) (s : State) : Answer :=
  whenInTransaction s (whenOutput s (whenSelected s (conclude (.ok .unit) (writeDataWord data s))))

/-- The sample of a `DATR` cycle: the chip drives the data bits of the cycle's word, so no free value is drawn (R84). -/
def takeDriven (data : Word) (s : State) : Word × State := (data, emit [.sample data] s)

/-- `DATR data` (R84), the cycle of `READ_DATA_WORD` with `data` on the lines. -/
def execDatr (data : Word) (s : State) : Answer :=
  whenInTransaction s (whenSelected s
    (conclude (.ok (.word (readCycle (takeDriven data) s).1)) (readCycle (takeDriven data) s).2))

end Sys2Proof.Machine
end

