-- ==== Sys2Proof/Machine/DisplaySequencer.lean ====
section
/-! DEFINITION. The meanings of the display sequencer's commands (spec/43_display_sequencer.md). -/

namespace Sys2Proof.Machine

/-- `CONSTRUCT` (R181): once, no event, cannot fail. -/
def execConstruct (s : State) : Answer :=
  require (s.lifecycle = .unconstructed) .alreadyConstructed
    (conclude (.ok .unit) { s with rot := .r0, lifecycle := .constructed })

/-- Step 29 of R183: the ten gamma registers in ascending order. -/
def gammaAccesses (c : Config) : List Access :=
  (c.reg.gamma.toList.zip c.init.gamma.toList).map (fun p => .write p.1 p.2)

/-- Steps 3 to 29 of R183. -/
def initHead (c : Config) : List Access :=
  [ .waitMs c.fixed.tResetSettleMs,
    .read c.reg.id,
    .write c.reg.oscStart c.fixed.oscStartValue,
    .waitMs c.fixed.tOscMs,
    .write c.reg.driverOutputControl c.init.driverOutputControl,
    .write c.reg.driverWaveformControl c.init.driverWaveformControl,
    .write c.reg.resizeControl c.init.resizeControl,
    .write c.reg.displayControl2 c.init.displayControl2,
    .write c.reg.displayControl3 c.init.displayControl3,
    .write c.reg.displayControl4 c.init.displayControl4,
    .write c.reg.rgbIfControl1 c.init.rgbIfControl1,
    .write c.reg.frameMarkerPosition c.init.frameMarkerPosition,
    .write c.reg.rgbIfControl2 c.init.rgbIfControl2,
    .write c.reg.powerControl1 c.init.pwr1Low,
    .write c.reg.powerControl2 c.init.pwr2Low,
    .write c.reg.powerControl3 c.init.pwr3Low,
    .write c.reg.powerControl4 c.init.pwr4Low,
    .waitMs c.fixed.tPwrLowMs,
    .write c.reg.powerControl1 c.init.pwr1Op,
    .write c.reg.powerControl2 c.init.pwr2Op,
    .waitMs c.fixed.tPwrStepMs,
    .write c.reg.powerControl3 c.init.pwr3Op,
    .waitMs c.fixed.tPwrStepMs,
    .write c.reg.powerControl4 c.init.pwr4Op,
    .write c.reg.powerControl7 c.init.pwr7Op,
    .waitMs c.fixed.tPwrStepMs ] ++ gammaAccesses c

/-- Steps 33 and 34 of R183. -/
def initTailAccesses (c : Config) : List Access :=
  c.initTail.map (fun p => .write p.1 p.2) ++ [.write c.reg.displayControl1 c.fixed.dc1On]

/-- Steps 1 to 34 of R183. -/
def initialisePanel (s : State) : State :=
  let s := setOutputMode (backlightOn s)
  let s := performAll (initHead s.cfg) s
  let s := setPointer 0 0 (resetWindow (applyRotation .r0 s))
  performAll (initTailAccesses s.cfg) s

/-- `INITIALIZE` (R182, R183). It makes the lines outputs itself; it opens transactions, so none may be open. -/
def execInitialise (s : State) : Answer :=
  whenConstructed s (whenNoTransaction s
    (conclude (.ok .unit) { initialisePanel s with lifecycle := .initialised }))

/-- `SET_WINDOW ns, ne` (R184). -/
def execSetWindow (xs ys xe ye : Word) (s : State) : Answer :=
  whenConstructed s (require (xs.toNat ≤ xe.toNat ∧ ys.toNat ≤ ye.toNat) .windowNotOrdered
    (whenBusFree s (conclude (.ok .unit) (setWindow xs ys xe ye s))))

/-- `RESET_WINDOW` (R185). -/
def execResetWindow (s : State) : Answer :=
  whenConstructed s (whenBusFree s (conclude (.ok .unit) (resetWindow s)))

/-- `SET_POINTER p` (R186). -/
def execSetPointer (x y : Word) (s : State) : Answer :=
  whenConstructed s (whenBusFree s (conclude (.ok .unit) (setPointer x y s)))

/-- The effect of `DRAW_PIXEL` (R187): the mapped point into the pointer, the colour into GRAM. -/
def drawPixel (p : Point) (colour : Word) (s : State) : State :=
  let (q, s1) := mapPoint p (nativeSize s.cfg) s
  (writeRegister s1.cfg.reg.gram colour (setPointer q.1 q.2 s1)).2

/-- `DRAW_PIXEL x, y, colour` (R187, R171). -/
def execDrawPixel (x y colour : Word) (s : State) : Answer :=
  whenInitialised s (whenBusFree s (conclude (.ok .unit) (drawPixel (Point.ofWords x y) colour s)))

/-- The effect of `FILL_RECTANGLE` on ordered corners (R188, R189). -/
def fillRectangle (tl br : Point) (colour : Word) (s : State) : State :=
  let s1 := fillWindow tl br s
  let n := fillCount s1.cfg (br.x - tl.x + 1) (br.y - tl.y + 1)
  resetWindow (writeRegisterBurst s1.cfg.reg.gram colour n s1).2

/-- `FILL_RECTANGLE tl, br, colour` (R188): corners out of order raise `InvalidWindow` before any bus activity. -/
def execFillRectangle (tlx tly brx bry colour : Word) (s : State) : Answer :=
  whenInitialised s
    (if tlx.toNat > brx.toNat ∨ tly.toNat > bry.toNat then raise .invalidWindow s
    else whenBusFree s
      (conclude (.ok .unit) (fillRectangle (Point.ofWords tlx tly) (Point.ofWords brx bry) colour s)))

end Sys2Proof.Machine
end

