-- ==== Sys2Proof/Machine/ParallelBus.lean ====
section
/-! DEFINITION. The meanings of the Parallel Bus commands (spec/40_parallel_bus.md). -/

namespace Sys2Proof.Machine

/-- `SET_OUTPUT_MODE` (R120). -/
def execSetOutputMode (s : State) : Answer := whenConstructed s (conclude (.ok .unit) (setOutputMode s))

/-- `SET_INPUT_MODE` (R121). -/
def execSetInputMode (s : State) : Answer := whenConstructed s (conclude (.ok .unit) (setInputMode s))

/-- `DRIVE_BUS value` (R122): only in output mode. -/
def execDriveBus (value : Word) (s : State) : Answer :=
  whenConstructed s (whenOutput s (conclude (.ok .unit) (driveBus value s)))

/-- `SAMPLE_BUS` (R123): only in input mode. -/
def execSampleBus (s : State) : Answer :=
  whenConstructed s (require (s.pins.dir = .val .inp) .notInputMode
    (conclude (.ok (.word (sampleBus s).1)) (sampleBus s).2))

/-- `TXN_BEGIN` (R124): not inside a transaction. -/
def execTxnBegin (s : State) : Answer :=
  whenConstructed s (whenNoTransaction s (conclude (.ok .unit) (txnBegin s)))

/-- `TXN_END` (R125): only inside a transaction. -/
def execTxnEnd (s : State) : Answer := whenInTransaction s (conclude (.ok .unit) (txnEnd s))

/-- `BACKLIGHT_ON` (R127). -/
def execBacklightOn (s : State) : Answer := whenConstructed s (conclude (.ok .unit) (backlightOn s))

end Sys2Proof.Machine
end

