-- ==== Sys2Proof/Machine/RegisterProtocol.lean ====
section
/-! DEFINITION. The meanings of the Register Protocol commands (spec/41_register_protocol.md). -/

namespace Sys2Proof.Machine

/-- `SELECT_REGISTER index` (R141). -/
def execSelectRegister (index : Word) (s : State) : Answer :=
  whenInTransaction s (whenOutput s (conclude (.ok .unit) (selectRegister index s)))

/-- `WRITE_DATA_WORD data` (R142). -/
def execWriteDataWord (data : Word) (s : State) : Answer :=
  whenInTransaction s (whenOutput s (whenSelected s (conclude (.ok .unit) (writeDataWord data s))))

/-- `READ_DATA_WORD` (R143): the rule asks for no mode of the data lines; the command switches them itself. -/
def execReadDataWord (s : State) : Answer :=
  whenInTransaction s (whenSelected s (conclude (.ok (.word (readDataWord s).1)) (readDataWord s).2))

/-- `WR_PULSE` (R144): only with a data word loaded in the same transaction. -/
def execWrPulse (s : State) : Answer :=
  whenInTransaction s (whenOutput s (whenSelected s
    (require (s.txnLoaded = true) .noDataWord (conclude (.ok .unit) (wrPulse s)))))

/-- `WRITE_REGISTER index, data` (R147). -/
def execWriteRegister (index data : Word) (s : State) : Answer :=
  whenConstructed s (whenBusFree s (concludeWith (writeRegister index data s)))

/-- `READ_REGISTER index` (R148). -/
def execReadRegister (index : Word) (s : State) : Answer :=
  whenConstructed s (whenBusFree s (concludeWith (readRegister index s)))

/-- `WRITE_REGISTER_BURST index, data, n` (R146): a count of 0 is refused. -/
def execWriteRegisterBurst (index data : Word) (count : Count) (s : State) : Answer :=
  whenConstructed s (require (1 ≤ count.toNat) .zeroCount
    (whenBusFree s (concludeWith (writeRegisterBurst index data count.toNat s))))

end Sys2Proof.Machine
end

