-- ==== Sys2Proof/Machine/RotationMapper.lean ====
section
/-! DEFINITION. The meanings of the rotation register's and the coordinate mapper's commands
(spec/42_rotation_mapper.md). -/

namespace Sys2Proof.Machine

/-- `SET_ROTATION r` (R163): the operand is checked before any effect; then `ROT` is stored and the entry-mode register
written. -/
def execSetRotation (ordinal : Word) (s : State) : Answer :=
  whenInitialised s
    (match Rotation.ofId ordinal.toNat with
    | none => raise .invalidRotationId s
    | some r => whenBusFree s (conclude (.ok .unit) (applyRotation r s)))

/-- `LOGICAL_SIZE` (R164). -/
def execLogicalSize (s : State) : Answer :=
  whenConstructed s
    (conclude (.ok (.size (coordWord (logicalSize s.cfg s.rot).width) (coordWord (logicalSize s.cfg s.rot).height))) s)

/-- `TO_NATIVE p, size` (R166, R171). -/
def execToNative (px py width height : Word) (s : State) : Answer :=
  whenConstructed s
    (let q := mapPoint (Point.ofWords px py) (Size.ofWords width height) s
    conclude (.ok (.point q.1.1 q.1.2)) q.2)

/-- `MAP_RECT tl, br` (R168, R171). -/
def execMapRect (tlx tly brx bry : Word) (s : State) : Answer :=
  whenConstructed s
    (let q := mapRect (Point.ofWords tlx tly) (Point.ofWords brx bry) s
    conclude (.ok (.rect q.1.xs q.1.ys q.1.xe q.1.ye)) q.2)

/-- `MAX_BOTTOM_RIGHT` (R165). -/
def execMaxBottomRight (s : State) : Answer :=
  whenConstructed s
    (conclude (.ok (.point (coordWord ((logicalSize s.cfg s.rot).width - 1)) (coordWord ((logicalSize s.cfg s.rot).height - 1)))) s)

/-- `ROTATION_FROM_ID id` (R161): not reduced mod 4. -/
def execRotationFromId (id : Word) (s : State) : Answer :=
  whenConstructed s
    (match Rotation.ofId id.toNat with
    | none => raise .invalidRotationId s
    | some r => conclude (.ok (.rotation r)) s)

end Sys2Proof.Machine
end

