-- ==== Sys2Proof/Machine/Dispatch.lean ====
section
/-! DEFINITION. One arm per instruction: the meaning it calls. -/

namespace Sys2Proof.Machine

/-- What an admitted instruction does. -/
def exec (i : Instr) (s : State) : Host.Outcome State Fault Refusal :=
  match i with
  | .setOutputMode => Sys2Proof.Machine.execSetOutputMode s
  | .setInputMode => Sys2Proof.Machine.execSetInputMode s
  | .driveBus value => Sys2Proof.Machine.execDriveBus value s
  | .sampleBus => Sys2Proof.Machine.execSampleBus s
  | .txnBegin => Sys2Proof.Machine.execTxnBegin s
  | .txnEnd => Sys2Proof.Machine.execTxnEnd s
  | .backlightOn => Sys2Proof.Machine.execBacklightOn s
  | .selectRegister index => Sys2Proof.Machine.execSelectRegister index s
  | .writeDataWord data => Sys2Proof.Machine.execWriteDataWord data s
  | .readDataWord => Sys2Proof.Machine.execReadDataWord s
  | .wrPulse => Sys2Proof.Machine.execWrPulse s
  | .writeRegister index data => Sys2Proof.Machine.execWriteRegister index data s
  | .readRegister index => Sys2Proof.Machine.execReadRegister index s
  | .writeRegisterBurst index data count => Sys2Proof.Machine.execWriteRegisterBurst index data count s
  | .setRotation ordinal => Sys2Proof.Machine.execSetRotation ordinal s
  | .logicalSize => Sys2Proof.Machine.execLogicalSize s
  | .toNative px py width height => Sys2Proof.Machine.execToNative px py width height s
  | .mapRect tlx tly brx bry => Sys2Proof.Machine.execMapRect tlx tly brx bry s
  | .maxBottomRight => Sys2Proof.Machine.execMaxBottomRight s
  | .rotationFromId id => Sys2Proof.Machine.execRotationFromId id s
  | .construct => Sys2Proof.Machine.execConstruct s
  | .initialise => Sys2Proof.Machine.execInitialise s
  | .setWindow xs ys xe ye => Sys2Proof.Machine.execSetWindow xs ys xe ye s
  | .resetWindow => Sys2Proof.Machine.execResetWindow s
  | .setPointer x y => Sys2Proof.Machine.execSetPointer x y s
  | .drawPixel x y colour => Sys2Proof.Machine.execDrawPixel x y colour s
  | .fillRectangle tlx tly brx bry colour => Sys2Proof.Machine.execFillRectangle tlx tly brx bry colour s
  | .idxw index => Sys2Proof.Machine.execIdxw index s
  | .datw data => Sys2Proof.Machine.execDatw data s
  | .datr data => Sys2Proof.Machine.execDatr data s

end Sys2Proof.Machine
end

