-- ==== Sys2Proof/Machine/Fetch.lean ====
section
/-! DEFINITION. How a command arrives: the host's next word is taken from the port (R20, R256), decoded, and its level is
checked (R99, R221). And, for the probe `State.withFetchWord`, the state in which an instruction is admitted. -/

namespace Sys2Proof.Machine

/-- The host's next word, and the machine with that word taken from the port. -/
def nextRequest (s : State) : Option (Encoded × State) :=
  match s.requests with
  | [] => none
  | e :: rest => some (e, { s with requests := rest })

/-- R99: an `INTERNAL` instruction from the host is refused unless `HOST_LEVEL = INTERNAL`. -/
def admitLevel (i : Instr) (s : State) (k : Answer) : Answer :=
  require (i.level = .pub ∨ s.cfg.hostLevel = .internal) .internalCommand k

/-- Run the word the host gave: an illegal word is refused (R98), then the level is checked, then the instruction runs. -/
def runRequest (e : Encoded) (s : State) : Answer :=
  match decode e with
  | .error why => .refused (.illegalWord why)
  | .ok i => admitLevel i s (exec i s)

/-- One step: with no word from the host PDBD waits (R240), else it runs the next one to completion (R22). -/
def stepRequest (s : State) : Answer :=
  match nextRequest s with
  | none => .next s
  | some (e, s1) => runRequest e s1

/-! ### The state that admits an instruction

Used only by `State.withFetchWord` (log entry 10); no step of the machine uses it. -/

/-- Past construction, unchanged where it already is. -/
def readyConstructed (s : State) : State :=
  match s.lifecycle with
  | .unconstructed => { s with lifecycle := .constructed }
  | .constructed => s
  | .initialised => s

/-- After a completed `INITIALIZE`. -/
def readyInitialised (s : State) : State := { s with lifecycle := .initialised }

/-- The data lines in a mode. -/
def readyMode (m : DataMode) (s : State) : State := { s with pins := { s.pins with dir := .val m } }

/-- The levels inside a transaction, with a register selected and a data word loaded. -/
def readyTransaction (s : State) : State :=
  { s with
    pins := { s.pins with cs := .val .low, rs := .val .high, wr := .val .high, rd := .val .high }
    txnOpen := true, txnSelected := true, txnLoaded := true }

/-- No transaction open. -/
def readyNoTransaction (s : State) : State :=
  if s.txnOpen = true then
    { s with pins := { s.pins with cs := .val .high }, txnOpen := false, txnSelected := false, txnLoaded := false }
  else s

/-- What the preconditions of R100 and R222 ask for the instruction. -/
def readyFor (i : Instr) (s : State) : State :=
  match i with
  | .setOutputMode => readyConstructed s
  | .setInputMode => readyConstructed s
  | .driveBus _ => readyMode .out (readyConstructed s)
  | .sampleBus => readyMode .inp (readyConstructed s)
  | .txnBegin => readyNoTransaction (readyConstructed s)
  | .txnEnd => readyTransaction (readyConstructed s)
  | .backlightOn => readyConstructed s
  | .selectRegister _ => readyMode .out (readyTransaction (readyConstructed s))
  | .writeDataWord _ => readyMode .out (readyTransaction (readyConstructed s))
  | .readDataWord => readyTransaction (readyConstructed s)
  | .wrPulse => readyMode .out (readyTransaction (readyConstructed s))
  | .writeRegister _ _ => readyMode .out (readyNoTransaction (readyConstructed s))
  | .readRegister _ => readyMode .out (readyNoTransaction (readyConstructed s))
  | .writeRegisterBurst _ _ _ => readyMode .out (readyNoTransaction (readyConstructed s))
  | .setRotation _ => readyMode .out (readyNoTransaction (readyInitialised s))
  | .logicalSize => readyConstructed s
  | .toNative _ _ _ _ => readyConstructed s
  | .mapRect _ _ _ _ => readyConstructed s
  | .maxBottomRight => readyConstructed s
  | .rotationFromId _ => readyConstructed s
  | .construct => { s with lifecycle := .unconstructed }
  | .initialise => readyNoTransaction (readyConstructed s)
  | .setWindow _ _ _ _ => readyMode .out (readyNoTransaction (readyConstructed s))
  | .resetWindow => readyMode .out (readyNoTransaction (readyConstructed s))
  | .setPointer _ _ => readyMode .out (readyNoTransaction (readyConstructed s))
  | .drawPixel _ _ _ => readyMode .out (readyNoTransaction (readyInitialised s))
  | .fillRectangle _ _ _ _ _ => readyMode .out (readyNoTransaction (readyInitialised s))
  | .idxw _ => readyMode .out (readyTransaction (readyConstructed s))
  | .datw _ => readyMode .out (readyTransaction (readyConstructed s))
  | .datr _ => readyTransaction (readyConstructed s)

/-- The host level at which the port takes the instruction (R99). -/
def readyLevel (i : Instr) (s : State) : State :=
  { s with cfg := { s.cfg with hostLevel := match i.level with | .pub => s.cfg.hostLevel | .internal => .internal } }

/-- The machine with the word next on its port, in a state that admits the instruction the word spells. -/
def placeRequest (e : Encoded) (s : State) : State :=
  let s1 := match decode e with
    | .ok i => readyLevel i (readyFor i s)
    | .error _ => s
  { s1 with requests := e :: s1.requests }

end Sys2Proof.Machine
end

