-- ==== Sys2Proof/Machine/Step.lean ====
section
/-! DEFINITION. One step of the machine, and the host's probe that puts an instruction where the next step takes it. -/

namespace Sys2Proof.Machine

/-- One step: one whole command (R22), or waiting. -/
def step (s : State) : Host.Outcome State Fault Refusal := stepRequest s

/-- The table word next on the port, in a state that admits it, so that the very next step runs it (log entry 10). -/
def State.withFetchWord (s : State) (nbits w : Nat) : State := placeRequest (encodedOfTable nbits w) s

end Sys2Proof.Machine
end

