-- ==== Sys2Proof/Machine/Pseudo.lean ====
section
/-! DEFINITION. The pseudo-commands of R103 that have no opcode: their expansions, and how the bracket `WITH_TRANSACTION`
runs a body of commands (R126, R216). `STROBE_WR` is `strobeWr` and the bracket over sequences is `withTransaction`, both in
Machine/Ops.lean. -/

namespace Sys2Proof.Machine

/-- The pseudo-commands that stand for commands (R103, R173). -/
inductive Pseudo
  /-- `SIZE`. -/
  | size
  /-- `MemWrite(idx, 2, v)`. -/
  | memWrite (index data : Word)
  /-- `MemRead(idx, 2)`. -/
  | memRead (index : Word)
  /-- `WITH_TRANSACTION`, with its body. -/
  | withTransaction (body : List Instr)
deriving DecidableEq, Repr

/-- The commands a pseudo-command stands for (R103). -/
def Pseudo.expand : Pseudo → List Instr
  | .size => [.logicalSize]
  | .memWrite index data => [.writeRegister index data]
  | .memRead index => [.readRegister index]
  | .withTransaction body => .txnBegin :: body ++ [.txnEnd]

/-- Commands one after another, each from the state the one before left; an error or a refusal skips the rest (R216). -/
def execAll : List Instr → State → Answer
  | [], s => .next s
  | i :: rest, s =>
      match exec i s with
      | .next t =>
          match t.result with
          | .val (.err _) => .next t
          | .val (.ok _) => execAll rest t
          | .bot => execAll rest t
      | .fault f => .fault f
      | .refused r => .refused r

/-- The end of the bracket: `TXN_END` runs whatever the body's result is, and that result is reported (R126). -/
def closeTransaction (s : State) : Answer :=
  match exec .txnEnd s with
  | .next t => .next { t with result := s.result }
  | .fault f => .fault f
  | .refused r => .refused r

/-- `WITH_TRANSACTION` over commands (R126, R216). A body the model refuses is refused as a whole (R100).
DESIGN CHOICE (log entry 17): R126 says what the bracket does with a body of register-protocol commands that holds no
`TXN_BEGIN`, and leaves every other body open. The model runs any list step by step, each command under its own
preconditions (R100), so it also completes a body such as `TXN_END, TXN_BEGIN`, or one of other commands. -/
def execBracket (body : List Instr) (s : State) : Answer :=
  match exec .txnBegin s with
  | .next t =>
      match execAll body t with
      | .next u => closeTransaction u
      | .fault f => .fault f
      | .refused r => .refused r
  | .fault f => .fault f
  | .refused r => .refused r

/-- A pseudo-command runs as its expansion; the bracket keeps its body's result. -/
def execPseudo : Pseudo → State → Answer
  | .size, s => exec .logicalSize s
  | .memWrite index data, s => exec (.writeRegister index data) s
  | .memRead index, s => exec (.readRegister index) s
  | .withTransaction body, s => execBracket body s

end Sys2Proof.Machine
end

