-- ==== Sys2Proof/Safety.lean ====
section
/-! DEFINITION. What counts as a safe run, in the terms the statements use: the traces of the spec's rules, the bus cycles
and register writes a trace holds, the legal levels of the bus, lower bounds on time, and the invariants. -/

namespace Sys2Proof.Safety

open Sys2Proof.Machine

/-! ### The traces the rules write out -/

/-- `W(i, d)`: the 18 events of `WRITE_REGISTER` (R147). -/
def writeTrace (i d : Word) : List Event :=
  [ .pin .rs .high, .pin .rd .high, .pin .wr .high, .pin .cs .low, .delayUs 1,
    .pin .rs .low, .drive i, .pin .wr .low, .delayUs 1, .pin .wr .high, .pin .rs .high,
    .delayUs 1,
    .drive d, .pin .wr .low, .delayUs 1, .pin .wr .high,
    .delayUs 1, .pin .cs .high ]

/-- `R(i) -> v`: the 20 events of `READ_REGISTER` (R148). -/
def readTrace (i v : Word) : List Event :=
  [ .pin .rs .high, .pin .rd .high, .pin .wr .high, .pin .cs .low, .delayUs 1,
    .pin .rs .low, .drive i, .pin .wr .low, .delayUs 1, .pin .wr .high, .pin .rs .high,
    .delayUs 1,
    .dir .inp, .pin .rd .low, .delayUs 1, .sample v, .pin .rd .high, .dir .out,
    .delayUs 1, .pin .cs .high ]

/-- `P`: the three events of `WR_PULSE` (R144). -/
def pulseTrace : List Event := [.pin .wr .low, .delayUs 1, .pin .wr .high]

/-- `B(i, d, n)`: the events of `WRITE_REGISTER_BURST` (R146). -/
def burstTrace (i d : Word) (n : Nat) : List Event :=
  [ .pin .rs .high, .pin .rd .high, .pin .wr .high, .pin .cs .low, .delayUs 1,
    .pin .rs .low, .drive i, .pin .wr .low, .delayUs 1, .pin .wr .high, .pin .rs .high,
    .delayUs 1,
    .drive d, .pin .wr .low, .delayUs 1, .pin .wr .high ] ++
  (List.replicate (n - 1) pulseTrace).flatten ++
  [ .delayUs 1, .pin .cs .high ]

/-- The events of several register writes, one transaction each. -/
def writesTrace (ws : List (Word × Word)) : List Event := ws.flatMap (fun w => writeTrace w.1 w.2)

/-- The register writes of `SET_WINDOW` (R184), the pointer pair last. -/
def windowWrites (c : Config) (xs ys xe ye px py : Word) : List (Word × Word) :=
  [(c.reg.hStart, xs), (c.reg.hEnd, xe), (c.reg.vStart, ys), (c.reg.vEnd, ye)] ++
    (if c.windowWritesPointer then [(c.reg.ramAddrH, px), (c.reg.ramAddrV, py)] else [])

/-- The register writes of `RESET_WINDOW` (R185). -/
def fullWindowWrites (c : Config) : List (Word × Word) := windowWrites c 0 0 239 319 0 0

/-- The word `DOUT` holds after `RESET_WINDOW`: the last word written (R184, R185). -/
def fullWindowLast (c : Config) : Word := if c.windowWritesPointer then 0 else 319

/-- The register writes of `INITIALIZE` before the rotation is set, between the waits (R183 steps 7 to 15). -/
def driverWrites (c : Config) : List (Word × Word) :=
  [ (c.reg.driverOutputControl, c.init.driverOutputControl), (c.reg.driverWaveformControl, c.init.driverWaveformControl),
    (c.reg.resizeControl, c.init.resizeControl), (c.reg.displayControl2, c.init.displayControl2),
    (c.reg.displayControl3, c.init.displayControl3), (c.reg.displayControl4, c.init.displayControl4),
    (c.reg.rgbIfControl1, c.init.rgbIfControl1), (c.reg.frameMarkerPosition, c.init.frameMarkerPosition),
    (c.reg.rgbIfControl2, c.init.rgbIfControl2) ]

/-- R183 steps 16 to 19. -/
def lowPowerWrites (c : Config) : List (Word × Word) :=
  [ (c.reg.powerControl1, c.init.pwr1Low), (c.reg.powerControl2, c.init.pwr2Low),
    (c.reg.powerControl3, c.init.pwr3Low), (c.reg.powerControl4, c.init.pwr4Low) ]

/-- R183 step 29: the ten gamma writes, ascending. -/
def gammaWrites (c : Config) : List (Word × Word) :=
  [ (c.reg.gamma[0], c.init.gamma[0]), (c.reg.gamma[1], c.init.gamma[1]), (c.reg.gamma[2], c.init.gamma[2]),
    (c.reg.gamma[3], c.init.gamma[3]), (c.reg.gamma[4], c.init.gamma[4]), (c.reg.gamma[5], c.init.gamma[5]),
    (c.reg.gamma[6], c.init.gamma[6]), (c.reg.gamma[7], c.init.gamma[7]), (c.reg.gamma[8], c.init.gamma[8]),
    (c.reg.gamma[9], c.init.gamma[9]) ]

/-- The whole trace of `INITIALIZE`, `id` being the word the identification read sampled (R183 steps 1 to 34). -/
def initialiseTrace (c : Config) (id : Word) : List Event :=
  [.pin .bl .high, .dir .out, .delayMs 130] ++
  readTrace c.reg.id id ++ writeTrace c.reg.oscStart 1 ++ [.delayMs 50] ++
  writesTrace (driverWrites c) ++ writesTrace (lowPowerWrites c) ++ [.delayMs 200] ++
  writesTrace [(c.reg.powerControl1, c.init.pwr1Op), (c.reg.powerControl2, c.init.pwr2Op)] ++ [.delayMs 50] ++
  writeTrace c.reg.powerControl3 c.init.pwr3Op ++ [.delayMs 50] ++
  writesTrace [(c.reg.powerControl4, c.init.pwr4Op), (c.reg.powerControl7, c.init.pwr7Op)] ++ [.delayMs 50] ++
  writesTrace (gammaWrites c) ++
  writeTrace c.reg.entryMode (c.em.idH ||| c.em.idV ||| c.em.bgr) ++
  writesTrace (fullWindowWrites c) ++
  writesTrace [(c.reg.ramAddrH, 0), (c.reg.ramAddrV, 0)] ++
  writesTrace c.initTail ++
  writeTrace c.reg.displayControl1 0x0133

/-! ### Conditions and outcomes -/

/-- The model refuses: no event, no state change (R98 to R100). -/
def Refuses (a : Answer) : Prop := ∃ r, a = .refused r

/-- PDBD has been constructed (R100, R222). -/
abbrev Constructed (s : State) : Prop := s.lifecycle ≠ .unconstructed

/-- No transaction is open and the data lines are outputs (R100). -/
abbrev BusFree (s : State) : Prop := s.txnOpen = false ∧ s.pins.dir = .val .out

/-- Inside a transaction, in the data phase, with a register selected (R100, R142, R143). -/
abbrev Selected (s : State) : Prop := s.txnOpen = true ∧ s.pins.rs = .val .high ∧ s.txnSelected = true

/-- The instructions that bracket transactions of their own (R126): the composites of the Register Protocol and what the
mapper and the sequencer build from them (R146 to R148, R163, R183 to R188). -/
def ownTransaction : Instr → Prop
  | .writeRegister _ _ => True
  | .readRegister _ => True
  | .writeRegisterBurst _ _ _ => True
  | .setRotation _ => True
  | .initialise => True
  | .setWindow _ _ _ _ => True
  | .resetWindow => True
  | .setPointer _ _ => True
  | .drawPixel _ _ _ => True
  | .fillRectangle _ _ _ _ _ => True
  | .setOutputMode => False
  | .setInputMode => False
  | .driveBus _ => False
  | .sampleBus => False
  | .txnBegin => False
  | .txnEnd => False
  | .backlightOn => False
  | .selectRegister _ => False
  | .writeDataWord _ => False
  | .readDataWord => False
  | .wrPulse => False
  | .logicalSize => False
  | .toNative _ _ _ _ => False
  | .mapRect _ _ _ _ => False
  | .maxBottomRight => False
  | .rotationFromId _ => False
  | .construct => False
  | .idxw _ => False
  | .datw _ => False
  | .datr _ => False

/-! ### Levels after a sequence -/

/-- The levels a transaction leaves: control lines idle, `DOUT` the last word driven (R39, R125, R140). -/
def idleWith (p : Pins) (d : Word) : Pins :=
  { p with cs := .val .high, rs := .val .high, wr := .val .high, rd := .val .high, dout := .val d }

/-- The state after transactions that gain the given events and leave `d` in `DOUT`, ended `Ok`. -/
def afterBus (s : State) (d : Word) (es : List Event) : State :=
  { s with
    pins := idleWith s.pins d
    trace := s.trace ++ es
    txnOpen := false, txnSelected := false, txnLoaded := false
    result := .val (.ok .unit) }

/-! ### Bus cycles of a trace (R81 to R84) -/

/-- The three kinds of bus cycle. -/
inductive Cycle
  | idxw (index : Word)
  | datw (data : Word)
  | datr (data : Word)
deriving DecidableEq, Repr

/-- A data-read cycle. -/
def Cycle.isRead : Cycle → Bool
  | .idxw _ => false
  | .datw _ => false
  | .datr _ => true

/-- The cycle an event opens (a falling `WR`) or fills (a sample while `RD` is low), `p` being the lines before it. -/
def cycleAt (p : Pins) : Event → List Cycle
  | .pin .wr .low =>
      match p.dout with
      | .bot => []
      | .val d =>
          if p.cs = .val .low ∧ p.rd = .val .high ∧ p.dir = .val .out then
            if p.rs = .val .low then [.idxw d] else if p.rs = .val .high then [.datw d] else []
          else []
  | .sample v =>
      if p.cs = .val .low ∧ p.rs = .val .high ∧ p.wr = .val .high ∧ p.rd = .val .low ∧ p.dir = .val .inp then [.datr v]
      else []
  | _ => []

/-- The bus cycles of a list of events that starts with the given levels. -/
def cyclesFrom : Pins → List Event → List Cycle
  | _, [] => []
  | p, e :: es => cycleAt p e ++ cyclesFrom (p.apply e) es

/-- The register writes of a list of cycles, `sel` being the index selected before it (R37). -/
def pairWrites : Option Word → List Cycle → List (Word × Word)
  | _, [] => []
  | _, .idxw i :: cs => pairWrites (some i) cs
  | none, .datw _ :: cs => pairWrites none cs
  | some i, .datw d :: cs => (i, d) :: pairWrites (some i) cs
  | sel, .datr _ :: cs => pairWrites sel cs

/-- The register writes of a whole trace. -/
def registerWrites (trace : List Event) : List (Word × Word) := pairWrites none (cyclesFrom Pins.reset trace)

/-- The last word written to a register, if any. -/
def lastWritten (index : Word) (ws : List (Word × Word)) : Option Word :=
  ws.foldl (fun acc w => if w.1 = index then some w.2 else acc) none

/-! ### Legal levels (R81, R85) -/

/-- The levels R81 and R85 allow: a strobe is low only in one of the three cycles, and a deselected bus is idle. -/
abbrev Legal (p : Pins) : Prop :=
  (p.wr = .val .low → p.cs = .val .low ∧ p.rd = .val .high ∧ p.rs ≠ .bot ∧ p.dir = .val .out ∧ p.dout ≠ .bot) ∧
  (p.rd = .val .low → p.cs = .val .low ∧ p.rs = .val .high ∧ p.wr = .val .high ∧ p.dir = .val .inp) ∧
  (p.cs = .val .low → p.rs ≠ .bot ∧ p.wr ≠ .bot ∧ p.rd ≠ .bot) ∧
  (p.cs = .val .high → p.rs = .val .high ∧ p.wr = .val .high ∧ p.rd = .val .high)

/-- The levels are legal before, between and after the events. -/
def LegalThrough : Pins → List Event → Prop
  | p, [] => Legal p
  | p, e :: es => Legal p ∧ LegalThrough (p.apply e) es

/-- The bus discipline: the latches are what the trace made them, the trace is legal at every point, and the transaction
bookkeeping agrees with the lines (R33, R81, R85, R140, R247). -/
structure Disciplined (s : State) : Prop where
  replay   : s.pins = Pins.reset.run s.trace
  legal    : LegalThrough Pins.reset s.trace
  opened   : s.txnOpen = true →
    s.pins.cs = .val .low ∧ s.pins.rs = .val .high ∧ s.pins.wr = .val .high ∧ s.pins.rd = .val .high
  closed   : s.txnOpen = false → s.pins.cs ≠ .val .low ∧ s.txnSelected = false
  selected : s.txnLoaded = true → s.txnSelected = true
  loaded   : s.txnLoaded = true → s.pins.dout ≠ .bot

/-- R39: the idle levels between commands. -/
abbrev Idle (p : Pins) : Prop :=
  p.cs = .val .high ∧ p.rs = .val .high ∧ p.wr = .val .high ∧ p.rd = .val .high ∧ p.dir = .val .out ∧ p.bl = .val .high

/-- R39 and R222 for a machine that takes `PUBLIC` commands only. -/
structure PublicIdle (s : State) : Prop where
  level    : s.cfg.hostLevel = .pub
  noTxn    : s.txnOpen = false
  idle     : s.lifecycle = .initialised → Idle s.pins
  rotation : s.lifecycle ≠ .initialised → s.rot = .r0

/-- The four window registers (R58). -/
def windowRegs (c : Config) : List Word := [c.reg.hStart, c.reg.hEnd, c.reg.vStart, c.reg.vEnd]

/-- The window registers are four, and no other write of the sequencer after the window's own goes to one of them. The
spec keeps the indices symbolic (R58, D20); without this the window could be overwritten by another register's word. -/
abbrev WindowApart (c : Config) : Prop :=
  (windowRegs c).Nodup ∧
  (∀ i ∈ windowRegs c, i ≠ c.reg.entryMode ∧ i ≠ c.reg.ramAddrH ∧ i ≠ c.reg.ramAddrV ∧ i ≠ c.reg.gram ∧
    i ≠ c.reg.displayControl1) ∧
  (∀ w ∈ c.initTail, w.1 ∉ windowRegs c)

/-- R39, R193: the window as PDBD last wrote it is the full native extent. -/
abbrev WindowFull (s : State) : Prop :=
  lastWritten s.cfg.reg.hStart (registerWrites s.trace) = some 0 ∧
  lastWritten s.cfg.reg.hEnd (registerWrites s.trace) = some 239 ∧
  lastWritten s.cfg.reg.vStart (registerWrites s.trace) = some 0 ∧
  lastWritten s.cfg.reg.vEnd (registerWrites s.trace) = some 319

/-! ### Lower bounds on time (R252, R253) -/

/-- The least time an event takes, in microseconds. -/
def eventMicros : Event → Nat
  | .delayUs n => n.toNat
  | .delayMs n => 1000 * n.toNat
  | _ => 0

/-- The least time a list of events takes: the sum of its delay steps. -/
def traceMicros (es : List Event) : Nat := (es.map eventMicros).sum

/-- The trace with every sampled value replaced by 0 (R61). -/
def withoutSamples (es : List Event) : List Event :=
  es.map (fun e => match e with | .sample _ => .sample 0 | e => e)

/-- The millisecond waits of a list of events, in order. -/
def milliWaits (es : List Event) : List Word :=
  es.filterMap (fun e => match e with | .delayMs n => some n | _ => none)

/-- The events a step added to the trace. -/
def gained (s t : State) : List Event := t.trace.drop s.trace.length

end Sys2Proof.Safety
end

