-- ==== Sys2Proof/Certificates/Slice0/Obligations.lean ====
section
/-! DEFINITION. The statements for the provers. Each docstring names the rules of spec/ it rests on. A statement of a
command's effect is an equation for the whole next state, so it is also the command's frame: every field it does not name
is unchanged, and the trace is the old trace with exactly the named events after it. PDBD has no memory (R52). -/

open Sys2Proof Sys2Proof.Machine Sys2Proof.Safety

/-! ### Reset, encoding, step -/

/-- R38: the reset value of every item. The model's own fields (bookkeeping, requests, draws, configuration) are not
claimed here. -/
def Obligations.ResetStateIsTheTable : Prop :=
  State.reset.rot = .r0 ∧
  State.reset.pins = { cs := .bot, rs := .bot, wr := .bot, rd := .bot, bl := .bot, dir := .bot, dout := .bot } ∧
  State.reset.lifecycle = .unconstructed ∧ State.reset.txnOpen = false ∧ State.reset.result = .bot ∧
  State.reset.trace = []

/-- R89, R90, R92: every instruction's word decodes to it, with every operand at every value. -/
def Obligations.DecodeOfEncode : Prop := ∀ i : Instr, decode (encode i) = .ok i

/-- R89: a word that decodes is the one word of its instruction, so a non-zero unused field or `Z` is never accepted. -/
def Obligations.EncodeOfDecode : Prop := ∀ (e : Encoded) (i : Instr), decode e = .ok i → encode i = e

/-- R92: every other value of `OP` is unassigned; R98: such a word spells no command. -/
def Obligations.UnassignedOpcodesAreIllegal : Prop :=
  ∀ w : CommandWord,
    w.extractLsb' 120 8 ∉ [0x01#8, 0x02#8, 0x03#8, 0x04#8, 0x05#8, 0x06#8, 0x07#8, 0x10#8, 0x11#8, 0x12#8, 0x13#8, 0x14#8,
      0x15#8, 0x16#8, 0x20#8, 0x21#8, 0x22#8, 0x23#8, 0x24#8, 0x25#8, 0x30#8, 0x31#8, 0x32#8, 0x33#8, 0x34#8, 0x35#8, 0x36#8] →
    decode (.command w) = .error .unassignedOpcode

/-- R92, R82 to R84, R89: words of 95_test_vectors.md decode as it says (one of each family, and three illegal words). -/
def Obligations.WordsFromTheTableDecode : Prop :=
  decode (.command 0x03000022000000000000000000000000#128) = .ok (.driveBus 0x0022) ∧
  decode (.command 0x1600002207E000000000000000012C00#128) = .ok (.writeRegisterBurst 0x0022 0x07E0 76800) ∧
  decode (.command 0x2200000A001400F00140000000000000#128) = .ok (.toNative 10 20 240 320) ∧
  decode (.command 0x3600000100010002000307E000000000#128) = .ok (.fillRectangle 1 1 2 3 0x07E0) ∧
  decode (.busCycle 0x10022#20) = .ok (.idxw 0x0022) ∧
  decode (.busCycle 0x5F800#20) = .ok (.datw 0xF800) ∧
  decode (.busCycle 0x69325#20) = .ok (.datr 0x9325) ∧
  decode (.command 0x21010000000000000000000000000000#128) = .error .unusedFieldNonzero ∧
  decode (.command 0x21000001000000000000000000000000#128) = .error .unusedFieldNonzero ∧
  decode (.command 0x350000000000F8000000000000000001#128) = .error .unusedFieldNonzero

/-- R91: the result word on `RES`, field by field; with no finished command the port has no value. -/
def Obligations.ResultWordLayout : Prop :=
  (∀ s : State, s.result = .bot → s.res = .bot) ∧
  (∀ (s : State) (k : ErrorKind), s.result = .val (.err k) →
    s.res = .val ((match k with
      | .hardwareEnableFailure => 1#8
      | .initializationFailure => 2#8
      | .invalidWindow => 3#8
      | .invalidRotationId => 4#8) ++ 0#16 ++ 0#16 ++ 0#16 ++ 0#16)) ∧
  (∀ s : State, s.result = .val (.ok .unit) → s.res = .val 0) ∧
  (∀ (s : State) (v : Word), s.result = .val (.ok (.word v)) → s.res = .val (0#8 ++ 0#16 ++ 0#16 ++ 0#16 ++ v)) ∧
  (∀ (s : State) (x y : Word), s.result = .val (.ok (.point x y)) → s.res = .val (0#8 ++ 0#16 ++ 0#16 ++ y ++ x)) ∧
  (∀ (s : State) (w h : Word), s.result = .val (.ok (.size w h)) → s.res = .val (0#8 ++ 0#16 ++ 0#16 ++ h ++ w)) ∧
  (∀ (s : State) (xs ys xe ye : Word), s.result = .val (.ok (.rect xs ys xe ye)) →
    s.res = .val (0#8 ++ ye ++ xe ++ ys ++ xs)) ∧
  (∀ (s : State) (r : Rotation), s.result = .val (.ok (.rotation r)) →
    s.res = .val (0#8 ++ 0#16 ++ 0#16 ++ 0#16 ++ (match r with | .r0 => 0#16 | .r90 => 1#16 | .r180 => 2#16 | .r270 => 3#16)))

/-- Derived from R22, R90 and R99: a step takes the host's next word off the port and is `exec` of the instruction it
decodes to, where the host's level admits that instruction. -/
def Obligations.StepRunsTheDecodedCommand : Prop :=
  ∀ (s : State) (e : Encoded) (rest : List Encoded) (i : Instr),
    s.requests = e :: rest → decode e = .ok i → (i.level = .pub ∨ s.cfg.hostLevel = .internal) →
    step s = exec i { s with requests := rest }

/-- R98 (an illegal word is refused), R99 (an `INTERNAL` command of a `PUBLIC` host is refused); with no word on the port
PDBD waits (R240). -/
def Obligations.StepRefusesIllegalAndInternalWords : Prop :=
  (∀ (s : State) (e : Encoded) (rest : List Encoded) (why : DecodeError),
    s.requests = e :: rest → decode e = .error why → step s = .refused (.illegalWord why)) ∧
  (∀ (s : State) (e : Encoded) (rest : List Encoded) (i : Instr),
    s.requests = e :: rest → decode e = .ok i → i.level = .internal → s.cfg.hostLevel = .pub →
    step s = .refused .internalCommand) ∧
  (∀ s : State, s.requests = [] → step s = .next s)

/-- Derived from R100 and R222: every instruction whose operands the spec admits runs to a next state in a state that meets
its preconditions. `readyFor` is the model's own way to meet them (log entry 10). -/
def Obligations.EveryAdmittedInstructionCompletes : Prop :=
  ∀ (i : Instr) (s : State), i.WellFormed → ∃ t, exec i (readyFor i s) = .next t

/-- R222: what each lifecycle phase admits, and R181: a second `CONSTRUCT` is refused. -/
def Obligations.LifecycleAdmitsByPhase : Prop :=
  (∀ (i : Instr) (s : State), s.lifecycle = .unconstructed → i ≠ .construct → Refuses (exec i s)) ∧
  (∀ s : State, s.lifecycle ≠ .unconstructed → Refuses (exec .construct s)) ∧
  (∀ (s : State) (x y colour : Word), s.lifecycle = .constructed → Refuses (exec (.drawPixel x y colour) s)) ∧
  (∀ (s : State) (a b c d e : Word), s.lifecycle = .constructed → Refuses (exec (.fillRectangle a b c d e) s)) ∧
  (∀ (s : State) (r : Word), s.lifecycle = .constructed → Refuses (exec (.setRotation r) s))

/-! ### Parallel Bus -/

/-- R120 and R121: the two mode switches. -/
def Obligations.ModeSwitchesSetDirOnly : Prop :=
  (∀ s : State, Constructed s →
    exec .setOutputMode s =
      .next { s with pins := { s.pins with dir := .val .out }, trace := s.trace ++ [.dir .out], result := .val (.ok .unit) }) ∧
  (∀ s : State, Constructed s →
    exec .setInputMode s =
      .next { s with pins := { s.pins with dir := .val .inp }, trace := s.trace ++ [.dir .inp], result := .val (.ok .unit) }) ∧
  decode (.command 0x01000000000000000000000000000000#128) = .ok .setOutputMode ∧
  decode (.command 0x02000000000000000000000000000000#128) = .ok .setInputMode

/-- R122: `DRIVE_BUS` loads `DOUT`, in output mode only. -/
def Obligations.DriveBusLoadsDout : Prop :=
  (∀ (value : Word) (s : State), Constructed s → s.pins.dir = .val .out →
    exec (.driveBus value) s =
      .next { s with pins := { s.pins with dout := .val value }, trace := s.trace ++ [.drive value],
                     result := .val (.ok .unit) }) ∧
  (∀ (value : Word) (s : State), Constructed s → s.pins.dir ≠ .val .out → Refuses (exec (.driveBus value) s)) ∧
  (∀ value : Word, decode (.command (0x03#8 ++ 0#8 ++ value ++ 0#16 ++ 0#16 ++ 0#16 ++ 0#16 ++ 0#32)) = .ok (.driveBus value))

/-- R123: `SAMPLE_BUS` reports the raw port value truncated to its low 16 bits, in input mode only. The raw value is the
free value `Config.freePort` at the counter of draws (R61; that name for it is the model's choice, log entry 5); with any
partner (log entry 13), one word in the event and in the result, and nothing else changed. -/
def Obligations.SampleBusReportsTruncatedPort : Prop :=
  (∀ s : State, Constructed s → s.pins.dir = .val .inp → s.cfg.partner = .unconstrained →
    let raw : BitVec s.cfg.portWidth := Config.freePort s.cfg.portWidth s.draws
    exec .sampleBus s =
      .next { s with trace := s.trace ++ [.sample (raw.setWidth 16)], draws := s.draws + 1,
                     result := .val (.ok (.word (raw.setWidth 16))) }) ∧
  (∀ s : State, Constructed s → s.pins.dir = .val .inp →
    ∃ v : Word,
      exec .sampleBus s =
        .next { s with trace := s.trace ++ [.sample v], draws := s.draws + 1, result := .val (.ok (.word v)) }) ∧
  (∀ s : State, Constructed s → s.pins.dir ≠ .val .inp → Refuses (exec .sampleBus s)) ∧
  decode (.command 0x04000000000000000000000000000000#128) = .ok .sampleBus

/-- R124: `TXN_BEGIN`, and no nesting. -/
def Obligations.TxnBeginSelectsTheChip : Prop :=
  (∀ s : State, Constructed s → s.txnOpen = false →
    exec .txnBegin s =
      .next { s with
        pins := { s.pins with cs := .val .low, rs := .val .high, wr := .val .high, rd := .val .high }
        trace := s.trace ++ [.pin .rs .high, .pin .rd .high, .pin .wr .high, .pin .cs .low, .delayUs 1]
        txnOpen := true, txnSelected := false, txnLoaded := false, result := .val (.ok .unit) }) ∧
  (∀ s : State, Constructed s → s.txnOpen = true → Refuses (exec .txnBegin s)) ∧
  decode (.command 0x05000000000000000000000000000000#128) = .ok .txnBegin

/-- R125: `TXN_END`, only inside a transaction. -/
def Obligations.TxnEndDeselectsTheChip : Prop :=
  (∀ s : State, Constructed s → s.txnOpen = true →
    exec .txnEnd s =
      .next { s with
        pins := { s.pins with cs := .val .high }
        trace := s.trace ++ [.delayUs 1, .pin .cs .high]
        txnOpen := false, txnSelected := false, txnLoaded := false, result := .val (.ok .unit) }) ∧
  (∀ s : State, Constructed s → s.txnOpen = false → Refuses (exec .txnEnd s)) ∧
  decode (.command 0x06000000000000000000000000000000#128) = .ok .txnEnd

/-- R126, R216: the bracket runs `TXN_END` whatever the inner result is, and returns that result unchanged. -/
def Obligations.WithTransactionAlwaysDeselects : Prop :=
  ∀ (body : State → Result × State) (s : State),
    (withTransaction body s).1 = (body (txnBegin s)).1 ∧
    (withTransaction body s).2.pins = { (body (txnBegin s)).2.pins with cs := .val .high } ∧
    (withTransaction body s).2.txnOpen = false ∧
    (withTransaction body s).2.trace = (body (txnBegin s)).2.trace ++ [.delayUs 1, .pin .cs .high]

/-- R126, R216, through the commands: a bracket that ends leaves the chip deselected, whatever commands its body is, and
reports the body's result, after the body's events and the two of `TXN_END`; an empty body is a bare chip-select pulse.
R126 speaks of bodies of register-protocol commands without `TXN_BEGIN`; what other bodies do is the model's choice (log
entry 17). -/
def Obligations.BracketEndsDeselected : Prop :=
  (∀ (body : List Instr) (s t : State), execBracket body s = .next t →
    t.txnOpen = false ∧ t.pins.cs = .val .high ∧
    ∃ s1 u : State, exec .txnBegin s = .next s1 ∧ execAll body s1 = .next u ∧ t.result = u.result ∧
      t.trace = u.trace ++ [.delayUs 1, .pin .cs .high]) ∧
  (∀ s : State, Constructed s → s.txnOpen = false →
    ∃ t : State, execBracket [] s = .next t ∧ t.result = .val (.ok .unit) ∧
      t.trace = s.trace ++
        [.pin .rs .high, .pin .rd .high, .pin .wr .high, .pin .cs .low, .delayUs 1, .delayUs 1, .pin .cs .high])

/-- R127: `BACKLIGHT_ON`; the line then carries `BL_ACTIVE_LEVEL`. -/
def Obligations.BacklightOnSetsBl : Prop :=
  (∀ s : State, Constructed s →
    exec .backlightOn s =
      .next { s with pins := { s.pins with bl := .val .high }, trace := s.trace ++ [.pin .bl .high],
                     result := .val (.ok .unit) }) ∧
  (∀ (p : Pins) (active : Level), p.bl = .val .high → p.backlightLevel active = .val active) ∧
  decode (.command 0x07000000000000000000000000000000#128) = .ok .backlightOn

/-! ### Register Protocol -/

/-- R141: `SELECT_REGISTER`, inside a transaction and in output mode; it makes one `IDXW` cycle. -/
def Obligations.SelectRegisterWritesTheIndex : Prop :=
  (∀ (index : Word) (s : State), Constructed s → s.txnOpen = true → s.pins.dir = .val .out →
    exec (.selectRegister index) s =
      .next { s with
        pins := { s.pins with rs := .val .high, wr := .val .high, dout := .val index }
        trace := s.trace ++
          [.pin .rs .low, .drive index, .pin .wr .low, .delayUs 1, .pin .wr .high, .pin .rs .high]
        txnSelected := true, txnLoaded := false, result := .val (.ok .unit) }) ∧
  (∀ (index : Word) (s : State), Constructed s → ¬ (s.txnOpen = true ∧ s.pins.dir = .val .out) →
    Refuses (exec (.selectRegister index) s)) ∧
  (∀ (index : Word) (p : Pins), p.cs = .val .low → p.rd = .val .high → p.dir = .val .out →
    cyclesFrom p [.pin .rs .low, .drive index, .pin .wr .low, .delayUs 1, .pin .wr .high, .pin .rs .high] = [.idxw index]) ∧
  (∀ index : Word, decode (.command (0x10#8 ++ 0#8 ++ index ++ 0#16 ++ 0#16 ++ 0#16 ++ 0#16 ++ 0#32)) = .ok (.selectRegister index))

/-- R142: `WRITE_DATA_WORD`, after a select in the same transaction and in output mode; it makes one `DATW` cycle. -/
def Obligations.WriteDataWordStrobesTheWord : Prop :=
  (∀ (data : Word) (s : State), Constructed s → Selected s → s.pins.dir = .val .out →
    exec (.writeDataWord data) s =
      .next { s with
        pins := { s.pins with wr := .val .high, dout := .val data }
        trace := s.trace ++ [.drive data, .pin .wr .low, .delayUs 1, .pin .wr .high]
        txnLoaded := true, result := .val (.ok .unit) }) ∧
  (∀ (data : Word) (s : State), Constructed s → ¬ (Selected s ∧ s.pins.dir = .val .out) →
    Refuses (exec (.writeDataWord data) s)) ∧
  (∀ (data : Word) (p : Pins), p.cs = .val .low → p.rs = .val .high → p.rd = .val .high → p.dir = .val .out →
    cyclesFrom p [.drive data, .pin .wr .low, .delayUs 1, .pin .wr .high] = [.datw data]) ∧
  (∀ data : Word, decode (.command (0x11#8 ++ 0#8 ++ data ++ 0#16 ++ 0#16 ++ 0#16 ++ 0#16 ++ 0#32)) = .ok (.writeDataWord data))

/-- R143: `READ_DATA_WORD`, after a select in the same transaction; it makes one `DATR` cycle. The sampled value is free:
the statement says only that there is one. -/
def Obligations.ReadDataWordSamplesWhileRdLow : Prop :=
  (∀ s : State, Constructed s → Selected s →
    ∃ v : Word,
      exec .readDataWord s =
        .next { s with
          pins := { s.pins with rd := .val .high, dir := .val .out }
          trace := s.trace ++ [.dir .inp, .pin .rd .low, .delayUs 1, .sample v, .pin .rd .high, .dir .out]
          txnLoaded := false, draws := s.draws + 1, result := .val (.ok (.word v)) }) ∧
  (∀ s : State, Constructed s → ¬ Selected s → Refuses (exec .readDataWord s)) ∧
  (∀ (v : Word) (p : Pins), p.cs = .val .low → p.rs = .val .high → p.wr = .val .high →
    cyclesFrom p [.dir .inp, .pin .rd .low, .delayUs 1, .sample v, .pin .rd .high, .dir .out] = [.datr v]) ∧
  decode (.command 0x12000000000000000000000000000000#128) = .ok .readDataWord

/-- R144: `WR_PULSE`, one more strobe of the loaded word: one `DATW` cycle of what `DOUT` holds. -/
def Obligations.WrPulseRepeatsTheStrobe : Prop :=
  (∀ s : State, Constructed s → Selected s → s.pins.dir = .val .out → s.txnLoaded = true →
    exec .wrPulse s =
      .next { s with
        pins := { s.pins with wr := .val .high }
        trace := s.trace ++ [.pin .wr .low, .delayUs 1, .pin .wr .high], result := .val (.ok .unit) }) ∧
  (∀ s : State, Constructed s → ¬ (Selected s ∧ s.pins.dir = .val .out ∧ s.txnLoaded = true) →
    Refuses (exec .wrPulse s)) ∧
  (∀ (d : Word) (p : Pins), p.cs = .val .low → p.rs = .val .high → p.rd = .val .high → p.dir = .val .out →
    p.dout = .val d → cyclesFrom p [.pin .wr .low, .delayUs 1, .pin .wr .high] = [.datw d]) ∧
  decode (.command 0x13000000000000000000000000000000#128) = .ok .wrPulse

/-- R147: `WRITE_REGISTER` is one transaction of 18 events, with one `IDXW` and one `DATW` cycle. -/
def Obligations.WriteRegisterIsOneTransaction : Prop :=
  (∀ (index data : Word) (s : State), Constructed s → BusFree s →
    exec (.writeRegister index data) s = .next (afterBus s data (writeTrace index data)) ∧
    cyclesFrom s.pins (writeTrace index data) = [.idxw index, .datw data] ∧ traceMicros (writeTrace index data) = 5) ∧
  (∀ (index data : Word) (s : State), Constructed s → ¬ BusFree s → Refuses (exec (.writeRegister index data) s)) ∧
  (∀ index data : Word, decode (.command (0x14#8 ++ 0#8 ++ index ++ data ++ 0#16 ++ 0#16 ++ 0#16 ++ 0#32)) = .ok (.writeRegister index data))

/-- R148: `READ_REGISTER` is one transaction of 20 events with one sample. The sampled value is free. -/
def Obligations.ReadRegisterIsOneTransaction : Prop :=
  (∀ (index : Word) (s : State), Constructed s → BusFree s →
    ∃ v : Word,
      exec (.readRegister index) s =
        .next { afterBus s index (readTrace index v) with draws := s.draws + 1, result := .val (.ok (.word v)) } ∧
      cyclesFrom s.pins (readTrace index v) = [.idxw index, .datr v] ∧ traceMicros (readTrace index v) = 5) ∧
  (∀ (index : Word) (s : State), Constructed s → ¬ BusFree s → Refuses (exec (.readRegister index) s)) ∧
  (∀ index : Word, decode (.command (0x15#8 ++ 0#8 ++ index ++ 0#16 ++ 0#16 ++ 0#16 ++ 0#16 ++ 0#32)) = .ok (.readRegister index))

/-- R146: `WRITE_REGISTER_BURST`, its trace, the trace's length, time and cycles (one index write, exactly n data writes of
the word); a count of 1 is `WRITE_REGISTER`; a count of 0 is refused. -/
def Obligations.BurstIsOneTransaction : Prop :=
  (∀ (index data : Word) (n : Count) (s : State), Constructed s → BusFree s → 1 ≤ n.toNat →
    exec (.writeRegisterBurst index data n) s = .next (afterBus s data (burstTrace index data n.toNat)) ∧
    (burstTrace index data n.toNat).length = 18 + 3 * (n.toNat - 1) ∧
    traceMicros (burstTrace index data n.toNat) = 5 + (n.toNat - 1) ∧
    cyclesFrom s.pins (burstTrace index data n.toNat) = .idxw index :: List.replicate n.toNat (.datw data)) ∧
  (∀ (index data : Word) (s : State), Constructed s → BusFree s →
    exec (.writeRegisterBurst index data 1) s = exec (.writeRegister index data) s) ∧
  (∀ (index data : Word) (s : State), Constructed s → Refuses (exec (.writeRegisterBurst index data 0) s)) ∧
  (∀ (index data : Word) (n : Count) (s : State), Constructed s → ¬ BusFree s →
    Refuses (exec (.writeRegisterBurst index data n) s)) ∧
  (∀ (index data : Word) (n : Count),
    decode (.command (0x16#8 ++ 0#8 ++ index ++ data ++ 0#16 ++ 0#16 ++ 0#16 ++ n)) = .ok (.writeRegisterBurst index data n))

/-- Derived from R103, R126 and R147: the primitives issued one by one leave the lines and the bus cycles of
`WRITE_REGISTER`; only the inter-stroke delay of the composite (R145) is not theirs. -/
def Obligations.PrimitivesRefineWriteRegister : Prop :=
  ∀ (index data : Word) (s : State), Constructed s → BusFree s →
    ∃ s1 s2 s3 s4 t, exec .txnBegin s = .next s1 ∧ exec (.selectRegister index) s1 = .next s2 ∧
      exec (.writeDataWord data) s2 = .next s3 ∧ exec .txnEnd s3 = .next s4 ∧
      exec (.writeRegister index data) s = .next t ∧
      s4.pins = t.pins ∧ s4.txnOpen = t.txnOpen ∧
      cyclesFrom s.pins (gained s s4) = cyclesFrom s.pins (gained s t) ∧
      gained s s4 = (gained s t).eraseIdx 11

/-- R82, R83, R84 (log entry 8 for what performing a bus-cycle row is): each row, inside a transaction on an idle bus,
produces exactly its cycle and leaves the bus idle. -/
def Obligations.BusCycleRowsProduceTheirCycle : Prop :=
  (∀ (index : Word) (s : State), Constructed s → s.txnOpen = true → s.pins.dir = .val .out →
    s.pins.cs = .val .low → s.pins.rs = .val .high → s.pins.wr = .val .high → s.pins.rd = .val .high →
    ∃ t, exec (.idxw index) s = .next t ∧ cyclesFrom s.pins (gained s t) = [.idxw index] ∧
      t = { s with pins := { s.pins with dout := .val index }, trace := s.trace ++ gained s t,
                   txnSelected := true, txnLoaded := false, result := .val (.ok .unit) }) ∧
  (∀ (data : Word) (s : State), Constructed s → Selected s → s.pins.dir = .val .out →
    s.pins.cs = .val .low → s.pins.wr = .val .high → s.pins.rd = .val .high →
    ∃ t, exec (.datw data) s = .next t ∧ cyclesFrom s.pins (gained s t) = [.datw data] ∧
      t = { s with pins := { s.pins with dout := .val data }, trace := s.trace ++ gained s t,
                   txnLoaded := true, result := .val (.ok .unit) }) ∧
  (∀ (data : Word) (s : State), Constructed s → Selected s → s.pins.dir = .val .out →
    s.pins.cs = .val .low → s.pins.wr = .val .high → s.pins.rd = .val .high →
    ∃ t, exec (.datr data) s = .next t ∧ cyclesFrom s.pins (gained s t) = [.datr data] ∧
      t = { s with trace := s.trace ++ gained s t, txnLoaded := false, result := .val (.ok (.word data)) })

/-! ### Rotation and coordinate mapper -/

/-- R161, R214: `ROTATION_FROM_ID`. -/
def Obligations.RotationFromIdIsNotReduced : Prop :=
  (∀ s : State, Constructed s →
    exec (.rotationFromId 0) s = .next { s with result := .val (.ok (.rotation .r0)) } ∧
    exec (.rotationFromId 1) s = .next { s with result := .val (.ok (.rotation .r90)) } ∧
    exec (.rotationFromId 2) s = .next { s with result := .val (.ok (.rotation .r180)) } ∧
    exec (.rotationFromId 3) s = .next { s with result := .val (.ok (.rotation .r270)) }) ∧
  (∀ (id : Word) (s : State), Constructed s → 4 ≤ id.toNat →
    exec (.rotationFromId id) s = .next { s with result := .val (.err .invalidRotationId) }) ∧
  (∀ id : Word, decode (.command (0x25#8 ++ 0#8 ++ id ++ 0#16 ++ 0#16 ++ 0#16 ++ 0#16 ++ 0#32)) = .ok (.rotationFromId id))

/-- R162, R163, R172: `SET_ROTATION` stores the rotation and makes exactly one register write, of `EM(r)`; a number of 4
or more raises `InvalidRotationId` with no event and `ROT` unchanged; before `INITIALIZE` it is refused. That a number of 4
or more ends with this error also while a transaction is open or the lines are not outputs, where R218 could be read to
refuse it, is the model's reading (DEDUCED, log entry 9). -/
def Obligations.SetRotationWritesEntryMode : Prop :=
  (∀ s : State, s.lifecycle = .initialised → BusFree s →
    let m := s.cfg.em
    let reg := s.cfg.reg.entryMode
    exec (.setRotation 0) s =
      .next (afterBus { s with rot := .r0 } (m.idH ||| m.idV ||| m.bgr) (writeTrace reg (m.idH ||| m.idV ||| m.bgr))) ∧
    exec (.setRotation 1) s =
      .next (afterBus { s with rot := .r90 } (m.am ||| m.idV ||| m.bgr) (writeTrace reg (m.am ||| m.idV ||| m.bgr))) ∧
    exec (.setRotation 2) s = .next (afterBus { s with rot := .r180 } m.bgr (writeTrace reg m.bgr)) ∧
    exec (.setRotation 3) s =
      .next (afterBus { s with rot := .r270 } (m.am ||| m.idH ||| m.bgr) (writeTrace reg (m.am ||| m.idH ||| m.bgr)))) ∧
  (∀ (ordinal : Word) (s : State), s.lifecycle = .initialised → 4 ≤ ordinal.toNat →
    exec (.setRotation ordinal) s = .next { s with result := .val (.err .invalidRotationId) }) ∧
  (∀ (ordinal : Word) (s : State), ordinal.toNat < 4 → ¬ BusFree s → Refuses (exec (.setRotation ordinal) s)) ∧
  (∀ (ordinal : Word) (s : State), s.lifecycle ≠ .initialised → Refuses (exec (.setRotation ordinal) s)) ∧
  (∀ ordinal : Word, decode (.command (0x20#8 ++ 0#8 ++ ordinal ++ 0#16 ++ 0#16 ++ 0#16 ++ 0#16 ++ 0#32)) = .ok (.setRotation ordinal)) ∧
  (∀ ordinal : Word, (Instr.setRotation ordinal).level = .pub)

/-- R164: `LOGICAL_SIZE`. -/
def Obligations.LogicalSizeFollowsRotation : Prop :=
  (∀ s : State, Constructed s → (s.rot = .r0 ∨ s.rot = .r180) →
    exec .logicalSize s = .next { s with result := .val (.ok (.size 240 320)) }) ∧
  (∀ s : State, Constructed s → (s.rot = .r90 ∨ s.rot = .r270) →
    exec .logicalSize s = .next { s with result := .val (.ok (.size 320 240)) }) ∧
  decode (.command 0x21000000000000000000000000000000#128) = .ok .logicalSize ∧
  Instr.logicalSize.level = .pub

/-- R165: `MAX_BOTTOM_RIGHT`. -/
def Obligations.MaxBottomRightFollowsRotation : Prop :=
  (∀ s : State, Constructed s → (s.rot = .r0 ∨ s.rot = .r180) →
    exec .maxBottomRight s = .next { s with result := .val (.ok (.point 239 319)) }) ∧
  (∀ s : State, Constructed s → (s.rot = .r90 ∨ s.rot = .r270) →
    exec .maxBottomRight s = .next { s with result := .val (.ok (.point 319 239)) }) ∧
  decode (.command 0x24000000000000000000000000000000#128) = .ok .maxBottomRight ∧
  Instr.maxBottomRight.level = .pub

/-- R166 on the domain of its table (the native size, a point of the logical rectangle), in the integers. -/
def Obligations.ToNativeOnTheScreen : Prop :=
  ∀ (px py : Word) (s : State), Constructed s → (Point.ofWords px py).within (logicalSize s.cfg s.rot) →
    ∃ x y : Word,
      exec (.toNative px py 240 320) s = .next { s with result := .val (.ok (.point x y)) } ∧
      (s.rot = .r0 → (x.toNat : Int) = px.toNat ∧ (y.toNat : Int) = py.toNat) ∧
      (s.rot = .r90 → (x.toNat : Int) = 239 - py.toNat ∧ (y.toNat : Int) = px.toNat) ∧
      (s.rot = .r180 → (x.toNat : Int) = 239 - px.toNat ∧ (y.toNat : Int) = 319 - py.toNat) ∧
      (s.rot = .r270 → (x.toNat : Int) = py.toNat ∧ (y.toNat : Int) = 319 - px.toNat)

/-- R166 for any size that is passed, on the domain the model takes (`Point.mapped`, DEDUCED, log entry 11). -/
def Obligations.ToNativeForAnySize : Prop :=
  ∀ (px py width height : Word) (s : State), Constructed s →
    Point.mapped s.cfg s.rot (Point.ofWords px py) (Size.ofWords width height) →
    ∃ x y : Word,
      exec (.toNative px py width height) s = .next { s with result := .val (.ok (.point x y)) } ∧
      (s.rot = .r0 → (x.toNat : Int) = px.toNat ∧ (y.toNat : Int) = py.toNat) ∧
      (s.rot = .r90 → (x.toNat : Int) = width.toNat - 1 - py.toNat ∧ (y.toNat : Int) = px.toNat) ∧
      (s.rot = .r180 → (x.toNat : Int) = width.toNat - 1 - px.toNat ∧ (y.toNat : Int) = height.toNat - 1 - py.toNat) ∧
      (s.rot = .r270 → (x.toNat : Int) = py.toNat ∧ (y.toNat : Int) = height.toNat - 1 - px.toNat)

/-- R168: `MAP_RECT` of corners in the logical rectangle is ordered, and its corners are the mapped corners' minima and
maxima. -/
def Obligations.MapRectOrdersMappedCorners : Prop :=
  ∀ (tlx tly brx bry : Word) (s : State), Constructed s →
    cornersWithin s.cfg s.rot (Point.ofWords tlx tly) (Point.ofWords brx bry) →
    ∃ ax ay bx by' xs ys xe ye : Word,
      exec (.toNative tlx tly 240 320) s = .next { s with result := .val (.ok (.point ax ay)) } ∧
      exec (.toNative brx bry 240 320) s = .next { s with result := .val (.ok (.point bx by')) } ∧
      exec (.mapRect tlx tly brx bry) s = .next { s with result := .val (.ok (.rect xs ys xe ye)) } ∧
      xs.toNat = min ax.toNat bx.toNat ∧ ys.toNat = min ay.toNat by'.toNat ∧
      xe.toNat = max ax.toNat bx.toNat ∧ ye.toNat = max ay.toNat by'.toNat

/-- R171: outside the logical rectangle `TO_NATIVE` and `MAP_RECT` still end `Ok`, with an unspecified point or rectangle
and nothing else changed; so does `TO_NATIVE` with any size where the spec states no result (`Point.mapped`, DEDUCED, log
entry 11). The words are free: the statement says only that there are some. -/
def Obligations.MapperOutsideStillCompletes : Prop :=
  (∀ (px py : Word) (s : State), Constructed s → ¬ (Point.ofWords px py).within (logicalSize s.cfg s.rot) →
    ∃ (x y : Word) (k : Nat),
      exec (.toNative px py 240 320) s = .next { s with result := .val (.ok (.point x y)), draws := k }) ∧
  (∀ (px py width height : Word) (s : State), Constructed s →
    ¬ Point.mapped s.cfg s.rot (Point.ofWords px py) (Size.ofWords width height) →
    ∃ (x y : Word) (k : Nat),
      exec (.toNative px py width height) s = .next { s with result := .val (.ok (.point x y)), draws := k }) ∧
  (∀ (tlx tly brx bry : Word) (s : State), Constructed s →
    ¬ cornersWithin s.cfg s.rot (Point.ofWords tlx tly) (Point.ofWords brx bry) →
    ∃ (xs ys xe ye : Word) (k : Nat),
      exec (.mapRect tlx tly brx bry) s = .next { s with result := .val (.ok (.rect xs ys xe ye)), draws := k })

/-- R169: for each rotation the transform is a bijection from its logical rectangle onto the native rectangle. -/
def Obligations.ToNativeIsABijection : Prop :=
  ∀ (c : Config) (r : Rotation),
    (∀ p : Point, p.within (logicalSize c r) → (toNativePoint r p (nativeSize c)).within (nativeSize c)) ∧
    (∀ p q : Point, p.within (logicalSize c r) → q.within (logicalSize c r) →
      toNativePoint r p (nativeSize c) = toNativePoint r q (nativeSize c) → p = q) ∧
    (∀ q : Point, q.within (nativeSize c) →
      ∃ p : Point, p.within (logicalSize c r) ∧ toNativePoint r p (nativeSize c) = q)

/-- R169: the round trip, through two commands: the inverse rotation against the logical size of the rotation recovers
the point (the domain of the way back is log entry 11's). -/
def Obligations.ToNativeRoundTrip : Prop :=
  ∀ (px py : Word) (s : State), Constructed s → (Point.ofWords px py).within (logicalSize s.cfg s.rot) →
    ∃ qx qy : Word,
      exec (.toNative px py 240 320) s = .next { s with result := .val (.ok (.point qx qy)) } ∧
      exec (.toNative qx qy (coordWord (logicalSize s.cfg s.rot).width) (coordWord (logicalSize s.cfg s.rot).height))
          { s with rot := Rotation.inv s.rot } =
        .next { s with rot := Rotation.inv s.rot, result := .val (.ok (.point px py)) }

/-! ### Display sequencer -/

/-- R181: `CONSTRUCT`. -/
def Obligations.ConstructTakesOwnership : Prop :=
  (∀ s : State, s.lifecycle = .unconstructed →
    exec .construct s = .next { s with rot := .r0, lifecycle := .constructed, result := .val (.ok .unit) }) ∧
  (∀ s : State, s.lifecycle ≠ .unconstructed → Refuses (exec .construct s)) ∧
  decode (.command 0x30000000000000000000000000000000#128) = .ok .construct ∧
  Instr.construct.level = .pub

/-- R183: `INITIALIZE` performs its 34 steps in order and ends initialised, whatever the identification read gave. -/
def Obligations.InitializePerformsItsSteps : Prop :=
  (∀ s : State, Constructed s → s.txnOpen = false →
    ∃ id : Word,
      exec .initialise s =
        .next { s with
          pins := { idleWith s.pins 0x0133 with bl := .val .high, dir := .val .out }
          rot := .r0, lifecycle := .initialised, txnOpen := false, txnSelected := false, txnLoaded := false
          result := .val (.ok .unit), trace := s.trace ++ initialiseTrace s.cfg id, draws := s.draws + 1 }) ∧
  (∀ s : State, Constructed s → s.txnOpen = true → Refuses (exec .initialise s)) ∧
  decode (.command 0x31000000000000000000000000000000#128) = .ok .initialise

/-- R183: every `INITIALIZE` that ends makes one read, 37 + P + T register writes, and the six millisecond waits in
order, from any levels. -/
def Obligations.InitializeCountsItsAccesses : Prop :=
  ∀ s t : State, exec .initialise s = .next t →
    (pairWrites none (cyclesFrom s.pins (gained s t))).length =
      37 + (if s.cfg.windowWritesPointer then 2 else 0) + s.cfg.initTail.length ∧
    (∃ id : Word, (cyclesFrom s.pins (gained s t)).filter Cycle.isRead = [.datr id]) ∧
    milliWaits (gained s t) = [130, 50, 200, 50, 50, 50]

/-- R186: `SET_POINTER`, the horizontal register first. -/
def Obligations.SetPointerWritesThePair : Prop :=
  (∀ (x y : Word) (s : State), Constructed s → BusFree s →
    exec (.setPointer x y) s =
      .next (afterBus s y (writesTrace [(s.cfg.reg.ramAddrH, x), (s.cfg.reg.ramAddrV, y)]))) ∧
  (∀ (x y : Word) (s : State), Constructed s → ¬ BusFree s → Refuses (exec (.setPointer x y) s)) ∧
  (∀ x y : Word, decode (.command (0x34#8 ++ 0#8 ++ x ++ y ++ 0#16 ++ 0#16 ++ 0#16 ++ 0#32)) = .ok (.setPointer x y)) ∧
  (∀ x y : Word, (Instr.setPointer x y).level = .internal)

/-- R184: `SET_WINDOW` of an ordered window; a window out of order is refused. -/
def Obligations.SetWindowWritesTheWindow : Prop :=
  (∀ (xs ys xe ye : Word) (s : State), Constructed s → BusFree s → xs.toNat ≤ xe.toNat → ys.toNat ≤ ye.toNat →
    exec (.setWindow xs ys xe ye) s =
      .next (afterBus s (if s.cfg.windowWritesPointer then ys else ye)
        (writesTrace (windowWrites s.cfg xs ys xe ye xs ys)))) ∧
  (∀ (xs ys xe ye : Word) (s : State), Constructed s → (xe.toNat < xs.toNat ∨ ye.toNat < ys.toNat) →
    Refuses (exec (.setWindow xs ys xe ye) s)) ∧
  (∀ (xs ys xe ye : Word) (s : State), Constructed s → ¬ BusFree s → Refuses (exec (.setWindow xs ys xe ye) s)) ∧
  (∀ xs ys xe ye : Word,
    decode (.command (0x32#8 ++ 0#8 ++ xs ++ ys ++ xe ++ ye ++ 0#16 ++ 0#32)) = .ok (.setWindow xs ys xe ye)) ∧
  (∀ xs ys xe ye : Word, (Instr.setWindow xs ys xe ye).level = .internal)

/-- R185: `RESET_WINDOW` writes the full native extent, whatever the rotation. -/
def Obligations.ResetWindowWritesTheFullExtent : Prop :=
  (∀ s : State, Constructed s → BusFree s →
    exec .resetWindow s = .next (afterBus s (fullWindowLast s.cfg) (writesTrace (fullWindowWrites s.cfg)))) ∧
  (∀ s : State, Constructed s → ¬ BusFree s → Refuses (exec .resetWindow s)) ∧
  decode (.command 0x33000000000000000000000000000000#128) = .ok .resetWindow ∧
  Instr.resetWindow.level = .internal

/-- R187: `DRAW_PIXEL` inside the logical rectangle: the native point into the pointer, then the colour into GRAM. -/
def Obligations.DrawPixelWritesOnePixel : Prop :=
  (∀ (x y colour : Word) (s : State), s.lifecycle = .initialised → BusFree s →
    (Point.ofWords x y).within (logicalSize s.cfg s.rot) →
    let q := toNativePoint s.rot (Point.ofWords x y) (nativeSize s.cfg)
    exec (.drawPixel x y colour) s =
      .next (afterBus s colour (writesTrace
        [(s.cfg.reg.ramAddrH, coordWord q.x), (s.cfg.reg.ramAddrV, coordWord q.y), (s.cfg.reg.gram, colour)]))) ∧
  (∀ (x y colour : Word) (s : State), ¬ BusFree s → Refuses (exec (.drawPixel x y colour) s)) ∧
  (∀ x y colour : Word, decode (.command (0x35#8 ++ 0#8 ++ x ++ y ++ colour ++ 0#16 ++ 0#16 ++ 0#32)) = .ok (.drawPixel x y colour)) ∧
  (∀ x y colour : Word, (Instr.drawPixel x y colour).level = .pub)

/-- R188: `FILL_RECTANGLE` inside the logical rectangle: the mapped window, one burst of the fill count, the full window. -/
def Obligations.FillRectangleStreamsTheColour : Prop :=
  (∀ (tlx tly brx bry colour : Word) (s : State), s.lifecycle = .initialised → BusFree s →
    tlx.toNat ≤ brx.toNat → tly.toNat ≤ bry.toNat →
    cornersWithin s.cfg s.rot (Point.ofWords tlx tly) (Point.ofWords brx bry) →
    let q := (mapRectangle s.cfg s.rot (Point.ofWords tlx tly) (Point.ofWords brx bry)).words
    let n := fillCount s.cfg (brx.toNat - tlx.toNat + 1) (bry.toNat - tly.toNat + 1)
    exec (.fillRectangle tlx tly brx bry colour) s =
      .next (afterBus s (fullWindowLast s.cfg)
        (writesTrace (windowWrites s.cfg q.xs q.ys q.xe q.ye q.xs q.ys) ++ burstTrace s.cfg.reg.gram colour n ++
          writesTrace (fullWindowWrites s.cfg)))) ∧
  (∀ (tlx tly brx bry colour : Word) (s : State), ¬ BusFree s →
    tlx.toNat ≤ brx.toNat → tly.toNat ≤ bry.toNat → Refuses (exec (.fillRectangle tlx tly brx bry colour) s)) ∧
  (∀ tlx tly brx bry colour : Word,
    decode (.command (0x36#8 ++ 0#8 ++ tlx ++ tly ++ brx ++ bry ++ colour ++ 0#32)) =
      .ok (.fillRectangle tlx tly brx bry colour))

/-- R171: outside the logical rectangle `DRAW_PIXEL` and `FILL_RECTANGLE` still complete with the same accesses; only the
words derived from the point or the corners are unspecified. The words are free: the statement says only that there are
some. -/
def Obligations.DrawingOutsideStillCompletes : Prop :=
  (∀ (x y colour : Word) (s : State), s.lifecycle = .initialised → BusFree s →
    ¬ (Point.ofWords x y).within (logicalSize s.cfg s.rot) →
    ∃ (a b : Word) (k : Nat),
      exec (.drawPixel x y colour) s =
        .next { afterBus s colour (writesTrace
          [(s.cfg.reg.ramAddrH, a), (s.cfg.reg.ramAddrV, b), (s.cfg.reg.gram, colour)]) with draws := k }) ∧
  (∀ (tlx tly brx bry colour : Word) (s : State), s.lifecycle = .initialised → BusFree s →
    tlx.toNat ≤ brx.toNat → tly.toNat ≤ bry.toNat →
    ¬ cornersWithin s.cfg s.rot (Point.ofWords tlx tly) (Point.ofWords brx bry) →
    ∃ (xs ys xe ye a b : Word) (k : Nat),
      exec (.fillRectangle tlx tly brx bry colour) s =
        .next { afterBus s (fullWindowLast s.cfg)
          (writesTrace (windowWrites s.cfg xs ys xe ye a b) ++
            burstTrace s.cfg.reg.gram colour (fillCount s.cfg (brx.toNat - tlx.toNat + 1) (bry.toNat - tly.toNat + 1)) ++
            writesTrace (fullWindowWrites s.cfg)) with draws := k })

/-- R213: corners out of order on either axis raise `InvalidWindow` before any bus activity. That they do so also while a
transaction is open or the lines are not outputs is the model's reading (DEDUCED, log entry 9). -/
def Obligations.InvalidWindowHasNoEffect : Prop :=
  ∀ (tlx tly brx bry colour : Word) (s : State), s.lifecycle = .initialised →
    (brx.toNat < tlx.toNat ∨ bry.toNat < tly.toNat) →
    exec (.fillRectangle tlx tly brx bry colour) s = .next { s with result := .val (.err .invalidWindow) }

/-- R189: the fill count is the least multiple of 4 that is at least `w * h`. -/
def Obligations.FillCountIsTheNextMultipleOfFour : Prop :=
  ∀ (c : Config) (w h : Nat),
    fillCount c w h % 4 = 0 ∧ w * h ≤ fillCount c w h ∧ (∀ m : Nat, m % 4 = 0 → w * h ≤ m → fillCount c w h ≤ m)

/-- R189, R193: every fill that ends `Ok` writes exactly the fill count of colour words to GRAM, and its last window
writes are the full native extent, whatever the rotation and wherever the corners are. -/
def Obligations.FillWritesCountWordsAndRestoresWindow : Prop :=
  ∀ (tlx tly brx bry colour : Word) (s t : State),
    exec (.fillRectangle tlx tly brx bry colour) s = .next t → t.result = .val (.ok .unit) →
    ∃ xs ys xe ye a b : Word,
      pairWrites none (cyclesFrom s.pins (gained s t)) =
        windowWrites s.cfg xs ys xe ye a b ++
        List.replicate (fillCount s.cfg (brx.toNat - tlx.toNat + 1) (bry.toNat - tly.toNat + 1)) (s.cfg.reg.gram, colour) ++
        fullWindowWrites s.cfg

/-! ### Whole-machine rules -/

/-- R23 to R29, R31 to R36: who writes what, over all instructions. Where a rule names a primitive, its writers here are
that primitive, the bus-cycle row it produces (log entry 8) and the instructions that bracket a transaction of their own
(`ownTransaction`). -/
def Obligations.EachItemHasItsWriters : Prop :=
  ∀ (i : Instr) (s t : State), exec i s = .next t →
    (∃ r, t.result = .val r) ∧ t.cfg = s.cfg ∧ t.requests = s.requests ∧ (∃ es, t.trace = s.trace ++ es) ∧
    (t.rot ≠ s.rot → i = .construct ∨ i = .initialise ∨ ∃ r, i = .setRotation r) ∧
    (t.lifecycle ≠ s.lifecycle → i = .construct ∨ i = .initialise) ∧
    (t.pins.cs ≠ s.pins.cs → i = .txnBegin ∨ i = .txnEnd ∨ ownTransaction i) ∧
    (t.pins.rs ≠ s.pins.rs → i = .txnBegin ∨ (∃ x, i = .selectRegister x ∨ i = .idxw x) ∨ ownTransaction i) ∧
    (t.pins.wr ≠ s.pins.wr → i = .txnBegin ∨ i = .wrPulse ∨
      (∃ x, i = .selectRegister x ∨ i = .idxw x ∨ i = .writeDataWord x ∨ i = .datw x) ∨ ownTransaction i) ∧
    (t.pins.rd ≠ s.pins.rd → i = .txnBegin ∨ i = .readDataWord ∨ (∃ d, i = .datr d) ∨ ownTransaction i) ∧
    (t.pins.dout ≠ s.pins.dout →
      (∃ x, i = .driveBus x ∨ i = .selectRegister x ∨ i = .idxw x ∨ i = .writeDataWord x ∨ i = .datw x) ∨
        ownTransaction i) ∧
    (t.pins.bl ≠ s.pins.bl → i = .backlightOn ∨ i = .initialise) ∧
    (t.pins.dir ≠ s.pins.dir → i = .setOutputMode ∨ i = .setInputMode ∨ i = .initialise ∨ i = .readDataWord ∨ ∃ d, i = .datr d) ∧
    (t.txnOpen = true → s.txnOpen = true ∨ i = .txnBegin) ∧
    (t.txnOpen = false → s.txnOpen = false ∨ i = .txnEnd)

/-- R192, R164 to R168, R161: the mapper's queries change nothing but `RESULT` (and the model's counter of free values),
and emit no event. -/
def Obligations.QueriesTouchNothingButResult : Prop :=
  ∀ (i : Instr) (s t : State), exec i s = .next t →
    (i = .logicalSize ∨ i = .maxBottomRight ∨ (∃ a, i = .rotationFromId a) ∨ (∃ a b c d, i = .toNative a b c d) ∨
      (∃ a b c d, i = .mapRect a b c d)) →
    t = { s with result := t.result, draws := t.draws }

/-- R210 to R214, R219: the only errors are `InvalidWindow` of `FILL_RECTANGLE` and `InvalidRotationId` of `SET_ROTATION`
and `ROTATION_FROM_ID`, and an error leaves everything but `RESULT` as it was. -/
def Obligations.ErrorsAreTwoAndPrecise : Prop :=
  ∀ (i : Instr) (s t : State) (k : ErrorKind), exec i s = .next t → t.result = .val (.err k) →
    t = { s with result := .val (.err k) } ∧
    ((k = .invalidWindow ∧ ∃ a b c d e, i = .fillRectangle a b c d e ∧ (c.toNat < a.toNat ∨ d.toNat < b.toNat)) ∨
      (k = .invalidRotationId ∧ ∃ a, (i = .setRotation a ∨ i = .rotationFromId a) ∧ 4 ≤ a.toNat))

/-- R247, R126: no command but `TXN_BEGIN` and the primitives inside an open transaction ends with the chip selected. -/
def Obligations.CommandsEndDeselected : Prop :=
  ∀ (i : Instr) (s t : State), Disciplined s → exec i s = .next t → s.txnOpen = false → i ≠ .txnBegin →
    t.txnOpen = false ∧ t.pins.cs ≠ .val .low

/-- R61: what a read samples steers nothing: two runs that start at different positions in the free values end with the
same levels, registers and events, but for the sampled value. -/
def Obligations.SampledValuesSteerNothing : Prop :=
  ∀ (i : Instr) (s : State) (k : Nat),
    (i = .sampleBus ∨ i = .readDataWord ∨ (∃ a, i = .readRegister a) ∨ i = .initialise) →
    (Refuses (exec i s) ∧ Refuses (exec i { s with draws := k })) ∨
    ∃ t u, exec i s = .next t ∧ exec i { s with draws := k } = .next u ∧
      u.pins = t.pins ∧ u.rot = t.rot ∧ u.lifecycle = t.lifecycle ∧ u.txnOpen = t.txnOpen ∧
      u.txnSelected = t.txnSelected ∧ u.txnLoaded = t.txnLoaded ∧
      withoutSamples u.trace = withoutSamples t.trace

/-- R253: the least time of each bus command, by its delay steps. -/
def Obligations.MinimumDurations : Prop :=
  ∀ (i : Instr) (s t : State), exec i s = .next t → t.result ≠ .val (.err .invalidWindow) →
    t.result ≠ .val (.err .invalidRotationId) →
    (i = .txnBegin ∨ i = .txnEnd ∨ (∃ a, i = .selectRegister a) ∨ (∃ a, i = .writeDataWord a) ∨ i = .readDataWord ∨
      i = .wrPulse → traceMicros (gained s t) = 1) ∧
    ((∃ a b, i = .writeRegister a b) ∨ (∃ a, i = .readRegister a) ∨ (∃ a, i = .setRotation a) →
      traceMicros (gained s t) = 5) ∧
    (∀ a b n, i = .writeRegisterBurst a b n → traceMicros (gained s t) = 4 + n.toNat) ∧
    ((∃ a b, i = .setPointer a b) → traceMicros (gained s t) = 10) ∧
    ((∃ a b c d, i = .setWindow a b c d) ∨ i = .resetWindow →
      traceMicros (gained s t) = if s.cfg.windowWritesPointer then 30 else 20) ∧
    ((∃ a b c, i = .drawPixel a b c) → traceMicros (gained s t) = 15) ∧
    (∀ a b c d e, i = .fillRectangle a b c d e → traceMicros (gained s t) =
      (if s.cfg.windowWritesPointer then 64 else 44) + fillCount s.cfg (c.toNat - a.toNat + 1) (d.toNat - b.toNat + 1)) ∧
    (i = .initialise → traceMicros (gained s t) =
      530000 + 5 * (38 + (if s.cfg.windowWritesPointer then 2 else 0) + s.cfg.initTail.length))

/-- R81, R85, R33, R140: the bus discipline is kept by every step from every state that has it. -/
def Obligations.StepKeepsBusDiscipline : Prop :=
  ∀ s t : State, Disciplined s → step s = .next t → Disciplined t

/-- R39: for a host that may issue `PUBLIC` commands only, every step keeps the idle levels between commands. -/
def Obligations.PublicStepKeepsIdle : Prop :=
  ∀ s t : State, PublicIdle s → step s = .next t → PublicIdle t

/-- R39, R193: for such a host, every step keeps the window as last written at the full native extent. `WindowApart` says
that the symbolic window indices are four and no other register's. -/
def Obligations.PublicStepKeepsWindowFull : Prop :=
  ∀ s t : State, Disciplined s → PublicIdle s → WindowApart s.cfg → (s.lifecycle = .initialised → WindowFull s) →
    step s = .next t → (t.lifecycle = .initialised → WindowFull t)

/-- The three invariants hold at reset (R38; the reset host level is the default of R99). -/
def Obligations.ResetMeetsTheInvariants : Prop :=
  Disciplined State.reset ∧ PublicIdle State.reset ∧ (State.reset.lifecycle = .initialised → WindowFull State.reset)
end

