-- ==== Sys2Proof/Laws/Decode.lean ====
section
/-! SUPPORT. The fields of a command word and of a pin vector, taken apart and joined. -/

namespace Sys2Proof.Laws

theorem getLsbD_eq_getElem_of {w : Nat} (x : BitVec w) {i j : Nat} (h : i = j) (hj : j < w) : x.getLsbD i = x[j] := by
  subst h; exact BitVec.getLsbD_eq_getElem hj

theorem getLsbD_congr {w : Nat} (x : BitVec w) {i j : Nat} (h : i = j) : x.getLsbD i = x.getLsbD j := by rw [h]

/-- Every field of a packed word is the field that was packed (R87). -/
theorem fieldsOf_pack (f : Fields) : fieldsOf f.pack = f := by
  rcases f with ⟨op, z, a, b, c, d, e, n⟩
  simp only [fieldsOf, Fields.pack, Fields.mk.injEq]
  refine ⟨?_, ?_, ?_, ?_, ?_, ?_, ?_, ?_⟩ <;>
    (ext i hi
     simp only [BitVec.getElem_extractLsb']
     change BitVec.getLsbD (w := 8 + 8 + 16 + 16 + 16 + 16 + 16 + 32) _ _ = _
     simp only [BitVec.getLsbD_append]
     repeat (first | rw [if_neg (by omega)] | rw [if_pos (by omega)])
     exact getLsbD_eq_getElem_of _ (by omega) hi)

/-- The fields of R87 cover the whole word. -/
theorem pack_fieldsOf (w : CommandWord) : (fieldsOf w).pack = w := by
  apply BitVec.eq_of_getLsbD_eq
  intro i hi
  simp only [fieldsOf, Fields.pack]
  change BitVec.getLsbD (w := 8 + 8 + 16 + 16 + 16 + 16 + 16 + 32) _ _ = _
  simp only [BitVec.getLsbD_append, BitVec.getLsbD_extractLsb']
  repeat' split
  all_goals (rw [decide_eq_true (by omega), Bool.true_and]; exact getLsbD_congr _ (by omega))

/-- The control bits and the data of a packed pin vector (R81). -/
theorem packCycle_fields (c : BitVec 4) (d : Word) :
    (packCycle c d).extractLsb' 16 4 = c ∧ (packCycle c d).extractLsb' 0 16 = d := by
  constructor <;>
    (ext i hi
     simp only [packCycle, BitVec.getElem_extractLsb']
     change BitVec.getLsbD (w := 4 + 16) _ _ = _
     simp only [BitVec.getLsbD_append]
     repeat (first | rw [if_neg (by omega)] | rw [if_pos (by omega)])
     exact getLsbD_eq_getElem_of _ (by omega) hi)

/-- The control bits and the data cover the whole pin vector. -/
theorem packCycle_of_fields (b : PinVector) : packCycle (b.extractLsb' 16 4) (b.extractLsb' 0 16) = b := by
  apply BitVec.eq_of_getLsbD_eq
  intro i hi
  simp only [packCycle]
  change BitVec.getLsbD (w := 4 + 16) _ _ = _
  simp only [BitVec.getLsbD_append, BitVec.getLsbD_extractLsb']
  repeat' split
  all_goals (rw [decide_eq_true (by omega), Bool.true_and]; exact getLsbD_congr _ (by omega))

/-- An instruction is accepted only with its unused fields zero (R89). -/
theorem acceptIf_ok_iff {u : Bool} {i j : Instr} : acceptIf u i = .ok j ↔ u = true ∧ i = j := by
  cases u <;> simp [acceptIf]

end Sys2Proof.Laws
end

