-- ==== Sys2Proof/Laws/State.lean ====
section
/-! SUPPORT. The small lemmas of the state's updates: one per field for `emit`, and the events' effect on the latches; and
the values of the parameters the source fixes. -/

namespace Sys2Proof.Laws

open Sys2Proof.Machine

/-! ### The parameters of R8 -/

@[simp] theorem fixed_dataWidth (c : Config) : c.fixed.dataWidth = 16 := by rw [c.fixed_eq]
@[simp] theorem fixed_nativeW (c : Config) : c.fixed.nativeW = 240 := by rw [c.fixed_eq]
@[simp] theorem fixed_nativeH (c : Config) : c.fixed.nativeH = 320 := by rw [c.fixed_eq]
@[simp] theorem fixed_tStrobeUs (c : Config) : c.fixed.tStrobeUs = 1 := by rw [c.fixed_eq]
@[simp] theorem fixed_tInterUs (c : Config) : c.fixed.tInterUs = 1 := by rw [c.fixed_eq]
@[simp] theorem fixed_tCsSetupUs (c : Config) : c.fixed.tCsSetupUs = 1 := by rw [c.fixed_eq]
@[simp] theorem fixed_tCsHoldUs (c : Config) : c.fixed.tCsHoldUs = 1 := by rw [c.fixed_eq]
@[simp] theorem fixed_tResetSettleMs (c : Config) : c.fixed.tResetSettleMs = 130 := by rw [c.fixed_eq]
@[simp] theorem fixed_tOscMs (c : Config) : c.fixed.tOscMs = 50 := by rw [c.fixed_eq]
@[simp] theorem fixed_tPwrLowMs (c : Config) : c.fixed.tPwrLowMs = 200 := by rw [c.fixed_eq]
@[simp] theorem fixed_tPwrStepMs (c : Config) : c.fixed.tPwrStepMs = 50 := by rw [c.fixed_eq]
@[simp] theorem fixed_dc1On (c : Config) : c.fixed.dc1On = 0x0133 := by rw [c.fixed_eq]
@[simp] theorem fixed_oscStartValue (c : Config) : c.fixed.oscStartValue = 1 := by rw [c.fixed_eq]
@[simp] theorem fixed_regIndexMin (c : Config) : c.fixed.regIndexMin = 0x00 := by rw [c.fixed_eq]
@[simp] theorem fixed_regIndexMax (c : Config) : c.fixed.regIndexMax = 0x98 := by rw [c.fixed_eq]
@[simp] theorem fixed_burst (c : Config) : c.fixed.burst = 4 := by rw [c.fixed_eq]

theorem nativeSize_eq (c : Config) : nativeSize c = { width := 240, height := 320 } := by simp [nativeSize]

theorem logicalSize_eq (c : Config) (r : Rotation) :
    logicalSize c r = match r with
      | .r0 => { width := 240, height := 320 }
      | .r90 => { width := 320, height := 240 }
      | .r180 => { width := 240, height := 320 }
      | .r270 => { width := 320, height := 240 } := by
  cases r <;> simp [logicalSize, nativeSize_eq]

theorem fillCount_eq (c : Config) (w h : Nat) : fillCount c w h = 4 * ((w * h + 3) / 4) := by simp [fillCount]

/-- The unconstrained partner's sample is the low 16 bits of the raw port value (R123). -/
theorem sampledValue_unconstrained {s : State} (h : s.cfg.partner = .unconstrained) :
    sampledValue s = (Config.freePort s.cfg.portWidth s.draws).setWidth 16 := by
  simp only [sampledValue, h]
  rw [fixed_dataWidth]
  simp

/-! ### Updates -/

@[simp] theorem emit_pins (es : List Event) (s : State) : (emit es s).pins = s.pins.run es := rfl
@[simp] theorem emit_trace (es : List Event) (s : State) : (emit es s).trace = s.trace ++ es := rfl
@[simp] theorem emit_rot (es : List Event) (s : State) : (emit es s).rot = s.rot := rfl
@[simp] theorem emit_lifecycle (es : List Event) (s : State) : (emit es s).lifecycle = s.lifecycle := rfl
@[simp] theorem emit_txnOpen (es : List Event) (s : State) : (emit es s).txnOpen = s.txnOpen := rfl
@[simp] theorem emit_txnSelected (es : List Event) (s : State) : (emit es s).txnSelected = s.txnSelected := rfl
@[simp] theorem emit_txnLoaded (es : List Event) (s : State) : (emit es s).txnLoaded = s.txnLoaded := rfl
@[simp] theorem emit_result (es : List Event) (s : State) : (emit es s).result = s.result := rfl
@[simp] theorem emit_requests (es : List Event) (s : State) : (emit es s).requests = s.requests := rfl
@[simp] theorem emit_draws (es : List Event) (s : State) : (emit es s).draws = s.draws := rfl
@[simp] theorem emit_cfg (es : List Event) (s : State) : (emit es s).cfg = s.cfg := rfl

@[simp] theorem run_nil (p : Pins) : p.run [] = p := rfl
@[simp] theorem run_cons (p : Pins) (e : Event) (es : List Event) : p.run (e :: es) = (p.apply e).run es := rfl

theorem run_append (p : Pins) (a b : List Event) : p.run (a ++ b) = (p.run a).run b := by
  simp [Pins.run, List.foldl_append]

theorem emit_emit (a b : List Event) (s : State) : emit b (emit a s) = emit (a ++ b) s := by
  simp [emit, run_append, List.append_assoc]

@[simp] theorem apply_cs (p : Pins) (v : Level) : p.apply (.pin .cs v) = { p with cs := .val v } := rfl
@[simp] theorem apply_rs (p : Pins) (v : Level) : p.apply (.pin .rs v) = { p with rs := .val v } := rfl
@[simp] theorem apply_wr (p : Pins) (v : Level) : p.apply (.pin .wr v) = { p with wr := .val v } := rfl
@[simp] theorem apply_rd (p : Pins) (v : Level) : p.apply (.pin .rd v) = { p with rd := .val v } := rfl
@[simp] theorem apply_bl (p : Pins) (v : Level) : p.apply (.pin .bl v) = { p with bl := .val v } := rfl
@[simp] theorem apply_dir (p : Pins) (m : DataMode) : p.apply (.dir m) = { p with dir := .val m } := rfl
@[simp] theorem apply_drive (p : Pins) (v : Word) : p.apply (.drive v) = { p with dout := .val v } := rfl
@[simp] theorem apply_sample (p : Pins) (v : Word) : p.apply (.sample v) = p := rfl
@[simp] theorem apply_delayUs (p : Pins) (n : Word) : p.apply (.delayUs n) = p := rfl
@[simp] theorem apply_delayMs (p : Pins) (n : Word) : p.apply (.delayMs n) = p := rfl

end Sys2Proof.Laws
end

