-- ==== Sys2Proof/Laws/Ops.lean ====
section
/-! SUPPORT. One lemma per shared operation: everything it can do. -/

namespace Sys2Proof.Laws

open Sys2Proof.Machine Sys2Proof.Safety

/-! ### Preconditions and results -/

@[simp] theorem require_next_iff {p : Prop} [Decidable p] {r : Refusal} {k : Answer} {t : State} :
    require p r k = .next t ↔ p ∧ k = .next t := by
  unfold require; split <;> simp_all

theorem require_of {p : Prop} [Decidable p] {r : Refusal} {k : Answer} (h : p) : require p r k = k := by
  simp [require, h]

theorem require_refuses {p : Prop} [Decidable p] {r : Refusal} {k : Answer} (h : ¬ p) : Refuses (require p r k) := by
  simp [require, h, Refuses]

/-- A precondition passes a refusal on. -/
theorem require_refuses_of {p : Prop} [Decidable p] {r : Refusal} {k : Answer} (h : p → Refuses k) :
    Refuses (require p r k) := by
  by_cases hp : p
  · simpa [require, hp] using h hp
  · exact require_refuses hp

/-- A precondition never makes a fault, and never changes a next state. -/
theorem require_next_or_refuses {p : Prop} [Decidable p] {r : Refusal} {k : Answer}
    (h : (∃ t, k = .next t) ∨ Refuses k) : (∃ t, require p r k = .next t) ∨ Refuses (require p r k) := by
  by_cases hp : p
  · simpa [require, hp] using h
  · exact .inr (require_refuses hp)

/-- There are no faults, so an answer is a next state or a refusal. -/
theorem refuses_iff {a : Answer} : Refuses a ↔ ∀ t, a ≠ .next t := by
  cases a with
  | next s => simp [Refuses]
  | fault r => cases r
  | refused r => simp [Refuses]

theorem conclude_eq (r : Result) (s : State) : conclude r s = .next { s with result := .val r } := rfl

theorem raise_eq (k : ErrorKind) (s : State) : raise k s = .next { s with result := .val (.err k) } := rfl

theorem concludeWith_eq (p : Result × State) : concludeWith p = .next { p.2 with result := .val p.1 } := rfl

@[simp] theorem conclude_next_iff {r : Result} {s t : State} :
    conclude r s = .next t ↔ t = { s with result := .val r } := by
  rw [conclude_eq, Host.Outcome.next.injEq, eq_comm]

@[simp] theorem raise_next_iff {k : ErrorKind} {s t : State} :
    raise k s = .next t ↔ t = { s with result := .val (.err k) } := conclude_next_iff

@[simp] theorem concludeWith_next_iff {p : Result × State} {t : State} :
    concludeWith p = .next t ↔ t = { p.2 with result := .val p.1 } := conclude_next_iff

@[simp] theorem whenConstructed_next_iff {s t : State} {k : Answer} :
    whenConstructed s k = .next t ↔ Constructed s ∧ k = .next t := require_next_iff

@[simp] theorem whenInitialised_next_iff {s t : State} {k : Answer} :
    whenInitialised s k = .next t ↔ s.lifecycle = .initialised ∧ k = .next t := by
  simp only [whenInitialised, whenConstructed_next_iff, require_next_iff, Constructed]
  constructor
  · rintro ⟨-, h⟩; exact h
  · rintro ⟨h, hk⟩; exact ⟨by simp [h], h, hk⟩

@[simp] theorem whenInTransaction_next_iff {s t : State} {k : Answer} :
    whenInTransaction s k = .next t ↔ Constructed s ∧ s.txnOpen = true ∧ k = .next t := by
  simp [whenInTransaction]

@[simp] theorem whenSelected_next_iff {s t : State} {k : Answer} :
    whenSelected s k = .next t ↔ s.pins.rs = .val .high ∧ s.txnSelected = true ∧ k = .next t := by
  simp [whenSelected]

@[simp] theorem whenOutput_next_iff {s t : State} {k : Answer} :
    whenOutput s k = .next t ↔ s.pins.dir = .val .out ∧ k = .next t := require_next_iff

@[simp] theorem whenNoTransaction_next_iff {s t : State} {k : Answer} :
    whenNoTransaction s k = .next t ↔ s.txnOpen = false ∧ k = .next t := require_next_iff

@[simp] theorem whenBusFree_next_iff {s t : State} {k : Answer} :
    whenBusFree s k = .next t ↔ BusFree s ∧ k = .next t := by
  simp [whenBusFree, and_assoc]

/-! ### Sequences -/

/-- The write strobe, whatever the configuration (R103). -/
theorem strobeWr_eq (c : Config) : strobeWr c = pulseTrace := by simp [strobeWr, pulseTrace]

/-- What `TXN_BEGIN` does (R124). -/
theorem txnBegin_eq (s : State) :
    txnBegin s =
      { s with pins := { s.pins with cs := .val .low, rs := .val .high, wr := .val .high, rd := .val .high }
               trace := s.trace ++ [.pin .rs .high, .pin .rd .high, .pin .wr .high, .pin .cs .low, .delayUs 1]
               txnOpen := true, txnSelected := false, txnLoaded := false } := by
  simp [txnBegin, emit]

/-- What `TXN_END` does (R125). -/
theorem txnEnd_eq (s : State) :
    txnEnd s =
      { s with pins := { s.pins with cs := .val .high }, trace := s.trace ++ [.delayUs 1, .pin .cs .high]
               txnOpen := false, txnSelected := false, txnLoaded := false } := by
  simp [txnEnd, emit]

/-- What `SELECT_REGISTER` does (R141). -/
theorem selectRegister_eq (i : Word) (s : State) :
    selectRegister i s =
      { s with pins := { s.pins with rs := .val .high, wr := .val .high, dout := .val i }
               trace := s.trace ++ [.pin .rs .low, .drive i, .pin .wr .low, .delayUs 1, .pin .wr .high, .pin .rs .high]
               txnSelected := true, txnLoaded := false } := by
  simp [selectRegister, strobeWr, emit]

/-- What `WRITE_DATA_WORD` does (R142). -/
theorem writeDataWord_eq (d : Word) (s : State) :
    writeDataWord d s =
      { s with pins := { s.pins with wr := .val .high, dout := .val d }
               trace := s.trace ++ [.drive d, .pin .wr .low, .delayUs 1, .pin .wr .high], txnLoaded := true } := by
  simp [writeDataWord, strobeWr, emit]

/-- What `WR_PULSE` does (R144). -/
theorem wrPulse_eq (s : State) :
    wrPulse s =
      { s with pins := { s.pins with wr := .val .high }
               trace := s.trace ++ [.pin .wr .low, .delayUs 1, .pin .wr .high] } := by
  simp [wrPulse, strobeWr, emit]

/-- A sample: one word, one event, one draw, nothing else. -/
theorem sampleBus_eq (s : State) :
    sampleBus s =
      (sampledValue s, { s with trace := s.trace ++ [.sample (sampledValue s)], draws := s.draws + 1 }) := rfl

theorem writeRegister_eq (i d : Word) (s : State) :
    writeRegister i d s = (.ok .unit,
      { s with pins := idleWith s.pins d, trace := s.trace ++ writeTrace i d,
               txnOpen := false, txnSelected := false, txnLoaded := false }) := by
  simp [writeRegister, withTransaction, txnBegin, selectRegister, delayUs, writeDataWord, txnEnd, strobeWr, idleWith,
    writeTrace, emit]

/-- A read cycle whose sample is a word, an event and perhaps a draw: everything it does. -/
theorem readDataWord_eq (s : State) :
    readDataWord s =
      (sampledValue (emit [.dir .inp, .pin .rd .low, .delayUs 1] s),
        { s with
          pins := { s.pins with rd := .val .high, dir := .val .out }
          trace := s.trace ++ [.dir .inp, .pin .rd .low, .delayUs 1,
            .sample (sampledValue (emit [.dir .inp, .pin .rd .low, .delayUs 1] s)), .pin .rd .high, .dir .out]
          txnLoaded := false, draws := s.draws + 1 }) := by
  simp [readDataWord, readCycle, sampleBus_eq, emit]

/-- A register read: some word is sampled, and everything else is fixed. -/
theorem readRegister_spec (i : Word) (s : State) :
    ∃ v, readRegister i s = (.ok (.word v),
      { s with pins := { idleWith s.pins i with dir := .val .out }, trace := s.trace ++ readTrace i v,
               txnOpen := false, txnSelected := false, txnLoaded := false, draws := s.draws + 1 }) := by
  refine ⟨(readDataWord (delayUs 1 (selectRegister i (txnBegin s)))).1, ?_⟩
  simp [readRegister, withTransaction, readDataWord_eq, txnBegin, selectRegister, delayUs, txnEnd, strobeWr, idleWith,
    readTrace, emit]

theorem run_pulse (p : Pins) : p.run pulseTrace = { p with wr := .val .high } := rfl

/-- Pulses leave the latches of an idle write strobe as they are. -/
theorem run_pulses (p : Pins) (h : p.wr = .val .high) (k : Nat) :
    p.run (List.replicate k pulseTrace).flatten = p := by
  induction k with
  | zero => rfl
  | succ k ih =>
    cases p
    simp_all [List.replicate_succ, pulseTrace]

theorem writeRegisterBurst_eq (i d : Word) (n : Nat) (s : State) :
    writeRegisterBurst i d n s = (.ok .unit,
      { s with pins := idleWith s.pins d, trace := s.trace ++ burstTrace i d n,
               txnOpen := false, txnSelected := false, txnLoaded := false }) := by
  simp [writeRegisterBurst, withTransaction, wrPulses, txnBegin, selectRegister, delayUs, writeDataWord, txnEnd, emit,
    strobeWr_eq, run_append, run_pulse, run_pulses, idleWith]
  simp [burstTrace, pulseTrace]

/-! ### Access lists -/

/-- The accesses of a list of register writes. -/
abbrev writeAccesses (ws : List (Word × Word)) : List Access := ws.map (fun w => .write w.1 w.2)

theorem performAll_append (a b : List Access) (s : State) :
    performAll (a ++ b) s = performAll b (performAll a s) := by
  simp [performAll, List.foldl_append]

@[simp] theorem performAll_nil (s : State) : performAll [] s = s := rfl

@[simp] theorem performAll_cons (a : Access) (as : List Access) (s : State) :
    performAll (a :: as) s = performAll as (perform s a) := rfl

theorem writesTrace_append (a b : List (Word × Word)) : writesTrace (a ++ b) = writesTrace a ++ writesTrace b := by
  simp [writesTrace]

/-- A non-empty list of register writes: the last word stays in `DOUT`, the traces join, the bus ends idle. -/
theorem performAll_writes (ws : List (Word × Word)) (w : Word × Word) (s : State) :
    performAll (writeAccesses (ws ++ [w])) s =
      { s with pins := idleWith s.pins w.2, trace := s.trace ++ writesTrace (ws ++ [w]),
               txnOpen := false, txnSelected := false, txnLoaded := false } := by
  induction ws generalizing s with
  | nil => simp [writeAccesses, perform, writeRegister_eq, writesTrace]
  | cons x xs ih =>
    simp only [writeAccesses, List.cons_append, List.map_cons, performAll_cons] at ih ⊢
    rw [ih]
    simp [perform, writeRegister_eq, writesTrace, idleWith]

theorem setPointer_eq (x y : Word) (s : State) :
    setPointer x y s =
      { s with pins := idleWith s.pins y, trace := s.trace ++ writesTrace [(s.cfg.reg.ramAddrH, x), (s.cfg.reg.ramAddrV, y)],
               txnOpen := false, txnSelected := false, txnLoaded := false } :=
  performAll_writes [(s.cfg.reg.ramAddrH, x)] (s.cfg.reg.ramAddrV, y) s

/-- The accesses that program a window are its register writes. -/
theorem windowAccesses_eq (c : Config) (xs ys xe ye px py : Word) :
    windowAccesses c xs ys xe ye px py = writeAccesses (windowWrites c xs ys xe ye px py) := by
  cases h : c.windowWritesPointer <;> simp [windowAccesses, windowWrites, pointerAccesses, h]

/-- The word a window leaves in `DOUT`. -/
def windowLast (c : Config) (ye py : Word) : Word := if c.windowWritesPointer then py else ye

theorem performAll_window (c : Config) (xs ys xe ye px py : Word) (s : State) :
    performAll (windowAccesses c xs ys xe ye px py) s =
      { s with pins := idleWith s.pins (windowLast c ye py),
               trace := s.trace ++ writesTrace (windowWrites c xs ys xe ye px py),
               txnOpen := false, txnSelected := false, txnLoaded := false } := by
  rw [windowAccesses_eq]
  cases h : c.windowWritesPointer
  · simpa [windowWrites, windowLast, h] using
      performAll_writes [(c.reg.hStart, xs), (c.reg.hEnd, xe), (c.reg.vStart, ys)] (c.reg.vEnd, ye) s
  · simpa [windowWrites, windowLast, h] using
      performAll_writes [(c.reg.hStart, xs), (c.reg.hEnd, xe), (c.reg.vStart, ys), (c.reg.vEnd, ye), (c.reg.ramAddrH, px)]
        (c.reg.ramAddrV, py) s

theorem setWindow_eq (xs ys xe ye : Word) (s : State) :
    setWindow xs ys xe ye s =
      { s with pins := idleWith s.pins (windowLast s.cfg ye ys),
               trace := s.trace ++ writesTrace (windowWrites s.cfg xs ys xe ye xs ys),
               txnOpen := false, txnSelected := false, txnLoaded := false } :=
  performAll_window s.cfg xs ys xe ye xs ys s

theorem resetWindow_eq (s : State) :
    resetWindow s =
      { s with pins := idleWith s.pins (fullWindowLast s.cfg), trace := s.trace ++ writesTrace (fullWindowWrites s.cfg),
               txnOpen := false, txnSelected := false, txnLoaded := false } := by
  have hw : coordWord (s.cfg.fixed.nativeW - 1) = 239 := by simp [coordWord]
  have hh : coordWord (s.cfg.fixed.nativeH - 1) = 319 := by simp [coordWord]
  rw [resetWindow, hw, hh]
  exact setWindow_eq 0 0 239 319 s

theorem applyRotation_eq (r : Rotation) (s : State) :
    applyRotation r s =
      { s with rot := r, pins := idleWith s.pins (entryModeWord s.cfg.em r),
               trace := s.trace ++ writeTrace s.cfg.reg.entryMode (entryModeWord s.cfg.em r),
               txnOpen := false, txnSelected := false, txnLoaded := false } := by
  simp [applyRotation, writeRegister_eq]

theorem vector_ten_toList {α : Type} (v : Vector α 10) :
    v.toList = [v[0], v[1], v[2], v[3], v[4], v[5], v[6], v[7], v[8], v[9]] := by
  apply List.ext_getElem (by simp)
  intro i h1 h2
  simp only [Vector.length_toList] at h1
  simp only [Vector.getElem_toList]
  match i, h1 with
  | 0, _ | 1, _ | 2, _ | 3, _ | 4, _ | 5, _ | 6, _ | 7, _ | 8, _ | 9, _ => rfl

/-- Step 29 of `INITIALIZE` is the ten gamma writes (R183). -/
theorem gammaAccesses_eq (c : Config) : gammaAccesses c = writeAccesses (gammaWrites c) := by
  simp [gammaAccesses, writeAccesses, gammaWrites, vector_ten_toList]

/-! ### The mapper -/

theorem mapPoint_of_mapped {p : Point} {size : Size} {s : State} (h : Point.mapped s.cfg s.rot p size) :
    mapPoint p size s = ((coordWord (toNativePoint s.rot p size).x, coordWord (toNativePoint s.rot p size).y), s) := by
  unfold mapPoint; rw [if_pos h]

/-- Whatever the point, the map gives two words and at most moves the counter of free values. -/
theorem mapPoint_spec (p : Point) (size : Size) (s : State) :
    ∃ x y k, mapPoint p size s = ((x, y), { s with draws := k }) := by
  unfold mapPoint
  split
  · exact ⟨_, _, s.draws, rfl⟩
  · exact ⟨_, _, s.draws + 1 + 1, rfl⟩

theorem mapRect_of_within {tl br : Point} {s : State} (h : cornersWithin s.cfg s.rot tl br) :
    mapRect tl br s = ((mapRectangle s.cfg s.rot tl br).words, s) := by
  unfold mapRect; rw [if_pos h]

/-- Whatever the corners, the map gives four words and at most moves the counter of free values. -/
theorem mapRect_spec (tl br : Point) (s : State) : ∃ q k, mapRect tl br s = (q, { s with draws := k }) := by
  unfold mapRect
  split
  · exact ⟨_, s.draws, rfl⟩
  · exact ⟨_, s.draws + 1 + 1 + 1 + 1, rfl⟩

/-- For the native size, the points the transform is stated for are those of the logical rectangle (R166, R171). -/
theorem mapped_native_iff (c : Config) (r : Rotation) (p : Point) :
    Point.mapped c r p (nativeSize c) ↔ p.within (logicalSize c r) := by
  constructor
  · rintro ⟨-, h | ⟨h, hn⟩⟩
    · exact h
    · cases r <;> first | exact hn | exact absurd h (by simp [nativeSize_eq, logicalSize_eq, Rotation.inv, Rotation.ofOrd, Rotation.ord])
  · intro h
    refine ⟨?_, .inl h⟩
    cases r <;> simp_all [Point.noUnderflow, Point.within, logicalSize_eq, nativeSize_eq]

/-- Whatever the corners, a fill programs a window, and at most moves the counter of free values. -/
theorem fillWindow_spec (tl br : Point) (s : State) :
    ∃ xs ys xe ye px py k,
      fillWindow tl br s =
        { s with pins := idleWith s.pins (windowLast s.cfg ye py),
                 trace := s.trace ++ writesTrace (windowWrites s.cfg xs ys xe ye px py),
                 txnOpen := false, txnSelected := false, txnLoaded := false, draws := k } := by
  obtain ⟨q, k, hq⟩ := mapRect_spec tl br s
  by_cases h : cornersWithin s.cfg s.rot tl br
  · refine ⟨q.xs, q.ys, q.xe, q.ye, q.xs, q.ys, k, ?_⟩
    unfold fillWindow
    rw [hq]
    simp only [if_pos h]
    exact setWindow_eq _ _ _ _ { s with draws := k }
  · refine ⟨q.xs, q.ys, q.xe, q.ye, Config.freeWord k, Config.freeWord (k + 1), k + 1 + 1, ?_⟩
    unfold fillWindow
    rw [hq]
    simp only [if_neg h]
    exact performAll_window s.cfg _ _ _ _ _ _ { s with draws := k + 1 + 1 }

theorem fillWindow_of_within {tl br : Point} {s : State} (h : cornersWithin s.cfg s.rot tl br) :
    fillWindow tl br s =
      setWindow (mapRectangle s.cfg s.rot tl br).words.xs (mapRectangle s.cfg s.rot tl br).words.ys
        (mapRectangle s.cfg s.rot tl br).words.xe (mapRectangle s.cfg s.rot tl br).words.ye s := by
  unfold fillWindow
  rw [mapRect_of_within h]
  simp only [if_pos h]

end Sys2Proof.Laws
end

