-- ==== Sys2Proof/Laws/Exec.lean ====
section
/-! SUPPORT. One inversion lemma per instruction: when `exec` answers a next state, and which one. -/

namespace Sys2Proof.Laws

open Sys2Proof.Machine Sys2Proof.Safety

variable {s t : State}

theorem setOutputMode_next_iff :
    exec .setOutputMode s = .next t ↔ Constructed s ∧ t = { setOutputMode s with result := .val (.ok .unit) } := by
  simp [exec, execSetOutputMode]

theorem setInputMode_next_iff :
    exec .setInputMode s = .next t ↔ Constructed s ∧ t = { setInputMode s with result := .val (.ok .unit) } := by
  simp [exec, execSetInputMode]

theorem driveBus_next_iff {v : Word} :
    exec (.driveBus v) s = .next t ↔
      Constructed s ∧ s.pins.dir = .val .out ∧ t = { driveBus v s with result := .val (.ok .unit) } := by
  simp [exec, execDriveBus]

theorem sampleBus_next_iff :
    exec .sampleBus s = .next t ↔
      Constructed s ∧ s.pins.dir = .val .inp ∧
        t = { (sampleBus s).2 with result := .val (.ok (.word (sampleBus s).1)) } := by
  simp [exec, execSampleBus]

theorem txnBegin_next_iff :
    exec .txnBegin s = .next t ↔
      Constructed s ∧ s.txnOpen = false ∧ t = { txnBegin s with result := .val (.ok .unit) } := by
  simp [exec, execTxnBegin]

theorem txnEnd_next_iff :
    exec .txnEnd s = .next t ↔
      Constructed s ∧ s.txnOpen = true ∧ t = { txnEnd s with result := .val (.ok .unit) } := by
  simp [exec, execTxnEnd]

theorem backlightOn_next_iff :
    exec .backlightOn s = .next t ↔ Constructed s ∧ t = { backlightOn s with result := .val (.ok .unit) } := by
  simp [exec, execBacklightOn]

theorem selectRegister_next_iff {i : Word} :
    exec (.selectRegister i) s = .next t ↔
      Constructed s ∧ s.txnOpen = true ∧ s.pins.dir = .val .out ∧
        t = { selectRegister i s with result := .val (.ok .unit) } := by
  simp [exec, execSelectRegister]

theorem writeDataWord_next_iff {d : Word} :
    exec (.writeDataWord d) s = .next t ↔
      Constructed s ∧ Selected s ∧ s.pins.dir = .val .out ∧
        t = { writeDataWord d s with result := .val (.ok .unit) } := by
  simp only [exec, execWriteDataWord, whenInTransaction_next_iff, whenSelected_next_iff, whenOutput_next_iff, conclude_next_iff,
    Selected, and_assoc]
  tauto

theorem readDataWord_next_iff :
    exec .readDataWord s = .next t ↔
      Constructed s ∧ Selected s ∧ t = { (readDataWord s).2 with result := .val (.ok (.word (readDataWord s).1)) } := by
  simp only [exec, execReadDataWord, whenInTransaction_next_iff, whenSelected_next_iff, conclude_next_iff, Selected, and_assoc]

theorem wrPulse_next_iff :
    exec .wrPulse s = .next t ↔
      Constructed s ∧ Selected s ∧ s.pins.dir = .val .out ∧ s.txnLoaded = true ∧
        t = { wrPulse s with result := .val (.ok .unit) } := by
  simp only [exec, execWrPulse, whenInTransaction_next_iff, whenSelected_next_iff, whenOutput_next_iff, require_next_iff, conclude_next_iff,
    Selected, and_assoc]
  tauto

theorem writeRegister_next_iff {i d : Word} :
    exec (.writeRegister i d) s = .next t ↔
      Constructed s ∧ BusFree s ∧ t = afterBus s d (writeTrace i d) := by
  simp [exec, execWriteRegister, writeRegister_eq, afterBus]

theorem readRegister_next_iff {i : Word} :
    exec (.readRegister i) s = .next t ↔
      Constructed s ∧ BusFree s ∧ t = { (readRegister i s).2 with result := .val (readRegister i s).1 } := by
  simp [exec, execReadRegister]

theorem writeRegisterBurst_next_iff {i d : Word} {n : Count} :
    exec (.writeRegisterBurst i d n) s = .next t ↔
      Constructed s ∧ 1 ≤ n.toNat ∧ BusFree s ∧ t = afterBus s d (burstTrace i d n.toNat) := by
  simp [exec, execWriteRegisterBurst, writeRegisterBurst_eq, afterBus]

theorem setRotation_next_iff {a : Word} :
    exec (.setRotation a) s = .next t ↔
      s.lifecycle = .initialised ∧
        ((Rotation.ofId a.toNat = none ∧ t = { s with result := .val (.err .invalidRotationId) }) ∨
          ∃ r, Rotation.ofId a.toNat = some r ∧ BusFree s ∧ t = { applyRotation r s with result := .val (.ok .unit) }) := by
  simp only [exec, execSetRotation, whenInitialised_next_iff]
  cases h : Rotation.ofId a.toNat <;> simp

theorem logicalSize_next_iff :
    exec .logicalSize s = .next t ↔
      Constructed s ∧ t = { s with result := .val (.ok (.size (coordWord (logicalSize s.cfg s.rot).width) (coordWord (logicalSize s.cfg s.rot).height))) } := by
  simp [exec, execLogicalSize]

theorem toNative_next_iff {a b c d : Word} :
    exec (.toNative a b c d) s = .next t ↔
      Constructed s ∧ t = { (mapPoint (Point.ofWords a b) (Size.ofWords c d) s).2 with result := .val (.ok (.point (mapPoint (Point.ofWords a b) (Size.ofWords c d) s).1.1
          (mapPoint (Point.ofWords a b) (Size.ofWords c d) s).1.2)) } := by
  simp [exec, execToNative]

theorem mapRect_next_iff {a b c d : Word} :
    exec (.mapRect a b c d) s = .next t ↔
      Constructed s ∧ t = { (mapRect (Point.ofWords a b) (Point.ofWords c d) s).2 with result := .val (.ok (.rect (mapRect (Point.ofWords a b) (Point.ofWords c d) s).1.xs
          (mapRect (Point.ofWords a b) (Point.ofWords c d) s).1.ys
          (mapRect (Point.ofWords a b) (Point.ofWords c d) s).1.xe
          (mapRect (Point.ofWords a b) (Point.ofWords c d) s).1.ye)) } := by
  simp [exec, execMapRect]

theorem maxBottomRight_next_iff :
    exec .maxBottomRight s = .next t ↔
      Constructed s ∧ t = { s with result := .val (.ok (.point (coordWord ((logicalSize s.cfg s.rot).width - 1)) (coordWord ((logicalSize s.cfg s.rot).height - 1)))) } := by
  simp [exec, execMaxBottomRight]

theorem rotationFromId_next_iff {a : Word} :
    exec (.rotationFromId a) s = .next t ↔
      Constructed s ∧
        ((Rotation.ofId a.toNat = none ∧ t = { s with result := .val (.err .invalidRotationId) }) ∨
          ∃ r, Rotation.ofId a.toNat = some r ∧ t = { s with result := .val (.ok (.rotation r)) }) := by
  simp only [exec, execRotationFromId, whenConstructed_next_iff]
  cases h : Rotation.ofId a.toNat <;> simp

theorem construct_next_iff :
    exec .construct s = .next t ↔
      s.lifecycle = .unconstructed ∧
        t = { s with rot := .r0, lifecycle := .constructed, result := .val (.ok .unit) } := by
  simp [exec, execConstruct]

theorem initialise_next_iff :
    exec .initialise s = .next t ↔
      Constructed s ∧ s.txnOpen = false ∧
        t = { initialisePanel s with lifecycle := .initialised, result := .val (.ok .unit) } := by
  simp [exec, execInitialise]

theorem setWindow_next_iff {a b c d : Word} :
    exec (.setWindow a b c d) s = .next t ↔
      Constructed s ∧ (a.toNat ≤ c.toNat ∧ b.toNat ≤ d.toNat) ∧ BusFree s ∧
        t = { setWindow a b c d s with result := .val (.ok .unit) } := by
  simp [exec, execSetWindow]

theorem resetWindow_next_iff :
    exec .resetWindow s = .next t ↔
      Constructed s ∧ BusFree s ∧ t = { resetWindow s with result := .val (.ok .unit) } := by
  simp [exec, execResetWindow]

theorem setPointer_next_iff {a b : Word} :
    exec (.setPointer a b) s = .next t ↔
      Constructed s ∧ BusFree s ∧ t = { setPointer a b s with result := .val (.ok .unit) } := by
  simp [exec, execSetPointer]

theorem drawPixel_next_iff {a b c : Word} :
    exec (.drawPixel a b c) s = .next t ↔
      s.lifecycle = .initialised ∧ BusFree s ∧
        t = { drawPixel (Point.ofWords a b) c s with result := .val (.ok .unit) } := by
  simp [exec, execDrawPixel]

theorem fillRectangle_next_iff {a b c d e : Word} :
    exec (.fillRectangle a b c d e) s = .next t ↔
      s.lifecycle = .initialised ∧
        (((c.toNat < a.toNat ∨ d.toNat < b.toNat) ∧ t = { s with result := .val (.err .invalidWindow) }) ∨
          (a.toNat ≤ c.toNat ∧ b.toNat ≤ d.toNat ∧ BusFree s ∧
            t = { fillRectangle (Point.ofWords a b) (Point.ofWords c d) e s with result := .val (.ok .unit) })) := by
  simp only [exec, execFillRectangle, whenInitialised_next_iff]
  by_cases h : c.toNat < a.toNat ∨ d.toNat < b.toNat
  · have h' : ¬ (a.toNat ≤ c.toNat ∧ b.toNat ≤ d.toNat) := by omega
    simp only [h, if_true, raise_next_iff, true_and, ← and_assoc, h', false_and, or_false]
  · have h' : a.toNat ≤ c.toNat ∧ b.toNat ≤ d.toNat := by omega
    simp only [h, if_false, whenBusFree_next_iff, conclude_next_iff, false_and, false_or, h', true_and, gt_iff_lt]

theorem idxw_next_iff {i : Word} :
    exec (.idxw i) s = .next t ↔
      Constructed s ∧ s.txnOpen = true ∧ s.pins.dir = .val .out ∧
        t = { selectRegister i s with result := .val (.ok .unit) } := by
  simp [exec, execIdxw]

theorem datw_next_iff {d : Word} :
    exec (.datw d) s = .next t ↔
      Constructed s ∧ Selected s ∧ s.pins.dir = .val .out ∧
        t = { writeDataWord d s with result := .val (.ok .unit) } := by
  simp only [exec, execDatw, whenInTransaction_next_iff, whenSelected_next_iff, whenOutput_next_iff, conclude_next_iff,
    Selected, and_assoc]
  tauto

theorem datr_next_iff {d : Word} :
    exec (.datr d) s = .next t ↔
      Constructed s ∧ Selected s ∧ t = { (readCycle (takeDriven d) s).2 with result := .val (.ok (.word d)) } := by
  have h : (readCycle (takeDriven d) s).1 = d := rfl
  simp only [exec, execDatr, whenInTransaction_next_iff, whenSelected_next_iff, conclude_next_iff, h, Selected, and_assoc]

end Sys2Proof.Laws
end

