-- ==== Sys2Proof/Laws/PerInstr.lean ====
section
/-! SUPPORT. For every instruction: the fixed fields of its word are as R81, R89 and R92 say. -/

namespace Sys2Proof.Laws

/-- The assigned values of `OP` (R92). -/
def assignedOpcodes : List (BitVec 8) :=
  [0x01, 0x02, 0x03, 0x04, 0x05, 0x06, 0x07, 0x10, 0x11, 0x12, 0x13, 0x14, 0x15, 0x16] ++
  [0x20, 0x21, 0x22, 0x23, 0x24, 0x25, 0x30, 0x31, 0x32, 0x33, 0x34, 0x35, 0x36]

/-- The control bits of the three bus cycles (R82, R83, R84). -/
def cycleControls : List (BitVec 4) := [0b0001, 0b0101, 0b0110]

/-- A command word has an assigned opcode and `Z` zero; a pin vector has the control bits of a cycle. -/
def FixedFields.Statement (i : Instr) : Prop :=
  match encode i with
  | .command w => w.extractLsb' 120 8 ∈ assignedOpcodes ∧ w.extractLsb' 112 8 = 0
  | .busCycle b => b.extractLsb' 16 4 ∈ cycleControls

/-- The statement for a packed command word, from its fields. -/
theorem fixedFields_pack (op : BitVec 8) (f : Fields) (hf : f.op = op) (hop : op ∈ assignedOpcodes) (hz : f.z = 0) :
    f.pack.extractLsb' 120 8 ∈ assignedOpcodes ∧ f.pack.extractLsb' 112 8 = 0 := by
  have h := fieldsOf_pack f
  have h1 : f.pack.extractLsb' 120 8 = f.op := congrArg Fields.op h
  have h2 : f.pack.extractLsb' 112 8 = f.z := congrArg Fields.z h
  rw [h1, h2, hf]
  exact ⟨hop, hz⟩

/-- The statement for a packed pin vector. -/
theorem fixedFields_packCycle (c : BitVec 4) (d : Word) (h : c ∈ cycleControls) :
    (packCycle c d).extractLsb' 16 4 ∈ cycleControls := by
  rw [(packCycle_fields c d).1]
  exact h

theorem FixedFields.setOutputMode : FixedFields.Statement Instr.setOutputMode :=
  fixedFields_pack 0x01 _ rfl (by decide) rfl
theorem FixedFields.setInputMode : FixedFields.Statement Instr.setInputMode :=
  fixedFields_pack 0x02 _ rfl (by decide) rfl
theorem FixedFields.driveBus (value : Word) : FixedFields.Statement (Instr.driveBus value) :=
  fixedFields_pack 0x03 _ rfl (by decide) rfl
theorem FixedFields.sampleBus : FixedFields.Statement Instr.sampleBus :=
  fixedFields_pack 0x04 _ rfl (by decide) rfl
theorem FixedFields.txnBegin : FixedFields.Statement Instr.txnBegin :=
  fixedFields_pack 0x05 _ rfl (by decide) rfl
theorem FixedFields.txnEnd : FixedFields.Statement Instr.txnEnd :=
  fixedFields_pack 0x06 _ rfl (by decide) rfl
theorem FixedFields.backlightOn : FixedFields.Statement Instr.backlightOn :=
  fixedFields_pack 0x07 _ rfl (by decide) rfl
theorem FixedFields.selectRegister (index : Word) : FixedFields.Statement (Instr.selectRegister index) :=
  fixedFields_pack 0x10 _ rfl (by decide) rfl
theorem FixedFields.writeDataWord (data : Word) : FixedFields.Statement (Instr.writeDataWord data) :=
  fixedFields_pack 0x11 _ rfl (by decide) rfl
theorem FixedFields.readDataWord : FixedFields.Statement Instr.readDataWord :=
  fixedFields_pack 0x12 _ rfl (by decide) rfl
theorem FixedFields.wrPulse : FixedFields.Statement Instr.wrPulse :=
  fixedFields_pack 0x13 _ rfl (by decide) rfl
theorem FixedFields.writeRegister (index data : Word) : FixedFields.Statement (Instr.writeRegister index data) :=
  fixedFields_pack 0x14 _ rfl (by decide) rfl
theorem FixedFields.readRegister (index : Word) : FixedFields.Statement (Instr.readRegister index) :=
  fixedFields_pack 0x15 _ rfl (by decide) rfl
theorem FixedFields.writeRegisterBurst (index data : Word) (count : Count) : FixedFields.Statement (Instr.writeRegisterBurst index data count) :=
  fixedFields_pack 0x16 _ rfl (by decide) rfl
theorem FixedFields.setRotation (ordinal : Word) : FixedFields.Statement (Instr.setRotation ordinal) :=
  fixedFields_pack 0x20 _ rfl (by decide) rfl
theorem FixedFields.logicalSize : FixedFields.Statement Instr.logicalSize :=
  fixedFields_pack 0x21 _ rfl (by decide) rfl
theorem FixedFields.toNative (px py width height : Word) : FixedFields.Statement (Instr.toNative px py width height) :=
  fixedFields_pack 0x22 _ rfl (by decide) rfl
theorem FixedFields.mapRect (tlx tly brx bry : Word) : FixedFields.Statement (Instr.mapRect tlx tly brx bry) :=
  fixedFields_pack 0x23 _ rfl (by decide) rfl
theorem FixedFields.maxBottomRight : FixedFields.Statement Instr.maxBottomRight :=
  fixedFields_pack 0x24 _ rfl (by decide) rfl
theorem FixedFields.rotationFromId (id : Word) : FixedFields.Statement (Instr.rotationFromId id) :=
  fixedFields_pack 0x25 _ rfl (by decide) rfl
theorem FixedFields.construct : FixedFields.Statement Instr.construct :=
  fixedFields_pack 0x30 _ rfl (by decide) rfl
theorem FixedFields.initialise : FixedFields.Statement Instr.initialise :=
  fixedFields_pack 0x31 _ rfl (by decide) rfl
theorem FixedFields.setWindow (xs ys xe ye : Word) : FixedFields.Statement (Instr.setWindow xs ys xe ye) :=
  fixedFields_pack 0x32 _ rfl (by decide) rfl
theorem FixedFields.resetWindow : FixedFields.Statement Instr.resetWindow :=
  fixedFields_pack 0x33 _ rfl (by decide) rfl
theorem FixedFields.setPointer (x y : Word) : FixedFields.Statement (Instr.setPointer x y) :=
  fixedFields_pack 0x34 _ rfl (by decide) rfl
theorem FixedFields.drawPixel (x y colour : Word) : FixedFields.Statement (Instr.drawPixel x y colour) :=
  fixedFields_pack 0x35 _ rfl (by decide) rfl
theorem FixedFields.fillRectangle (tlx tly brx bry colour : Word) : FixedFields.Statement (Instr.fillRectangle tlx tly brx bry colour) :=
  fixedFields_pack 0x36 _ rfl (by decide) rfl
theorem FixedFields.idxw (index : Word) : FixedFields.Statement (Instr.idxw index) :=
  fixedFields_packCycle _ _ (by decide)
theorem FixedFields.datw (data : Word) : FixedFields.Statement (Instr.datw data) :=
  fixedFields_packCycle _ _ (by decide)
theorem FixedFields.datr (data : Word) : FixedFields.Statement (Instr.datr data) :=
  fixedFields_packCycle _ _ (by decide)

end Sys2Proof.Laws
end

