-- ==== Sys2Proof/Laws/RefDevice.lean ====
section
/-! SUPPORT. The reference device's partial map: read after write, and the canonical form kept. -/

namespace Sys2Proof.Laws

open Sys2Proof.Machine

theorem getReg_setReg_same (i : Nat) (w : Word) (regs : List (Nat × Word)) : getReg i (setReg i w regs) = some w := by
  induction regs with
  | nil => simp [setReg, getReg]
  | cons r rest ih =>
    obtain ⟨j, v⟩ := r
    simp only [setReg]
    split
    · simp [getReg]
    · split
      · simp [getReg]
      · simp_all [getReg]

/-- A write leaves every other register alone. -/
theorem getReg_setReg_other {i j : Nat} (h : i ≠ j) (w : Word) (regs : List (Nat × Word)) :
    getReg i (setReg j w regs) = getReg i regs := by
  induction regs with
  | nil => simp [setReg, getReg, h]
  | cons r rest ih =>
    obtain ⟨k, v⟩ := r
    simp only [setReg]
    split
    · simp [getReg, h]
    · split
      · next h1 h2 => subst h2; simp [getReg, h]
      · simp [getReg, ih]

/-- The indices of a map after a write: the old ones and the one written. -/
theorem mem_setReg {i : Nat} {w : Word} {regs : List (Nat × Word)} {x : Nat × Word} (h : x ∈ setReg i w regs) :
    x = (i, w) ∨ x ∈ regs := by
  induction regs with
  | nil => simpa [setReg] using h
  | cons r rest ih =>
    obtain ⟨j, v⟩ := r
    simp only [setReg] at h
    split at h
    · simpa using h
    · split at h
      · rcases List.mem_cons.1 h with h | h
        · exact .inl h
        · exact .inr (List.mem_cons_of_mem _ h)
      · rcases List.mem_cons.1 h with h | h
        · exact .inr (h ▸ List.mem_cons_self)
        · exact (ih h).imp id (List.mem_cons_of_mem _)

/-- A write keeps the map sorted, with no repeats. -/
theorem regsWf_setReg {i : Nat} {w : Word} {regs : List (Nat × Word)} (h : regsWf regs) : regsWf (setReg i w regs) := by
  induction regs with
  | nil => simp [regsWf, setReg]
  | cons r rest ih =>
    obtain ⟨j, v⟩ := r
    obtain ⟨h1, h2⟩ := List.pairwise_cons.1 h
    simp only [setReg]
    split
    · next hij =>
      refine List.pairwise_cons.2 ⟨?_, h⟩
      intro x hx
      rcases List.mem_cons.1 hx with rfl | hx
      · exact hij
      · exact Nat.lt_trans hij (h1 x hx)
    · split
      · next hij => subst hij; exact List.pairwise_cons.2 ⟨h1, h2⟩
      · refine List.pairwise_cons.2 ⟨?_, ih h2⟩
        intro x hx
        rcases mem_setReg hx with rfl | hx
        · simp only; omega
        · exact h1 x hx

/-- Every event leaves the device's map in canonical form. -/
theorem regsWf_observe {gram : Word} {p : Pins} {d : RefDevice} {e : Event} (h : regsWf d.regs) :
    regsWf (d.observe gram p e).regs := by
  unfold RefDevice.observe
  split
  · exact h
  · exact h
  · split
    · split
      · unfold RefDevice.latch
        split
        · exact h
        · split
          · exact h
          · split
            · exact h
            · exact regsWf_setReg h
        · exact h
      · exact h
    · exact h
  · exact h

/-- The map is in canonical form after any events. -/
theorem regsWf_watchFrom {gram : Word} {p : Pins} {d : RefDevice} {es : List Event} (h : regsWf d.regs) :
    regsWf (RefDevice.watchFrom gram p d es).regs := by
  induction es generalizing p d with
  | nil => exact h
  | cons e es ih => exact ih (regsWf_observe h)

theorem regsWf_watch (gram : Word) (trace : List Event) : regsWf (RefDevice.watch gram trace).regs :=
  regsWf_watchFrom List.Pairwise.nil

end Sys2Proof.Laws
end

