-- ==== Sys2Proof/Laws/Trace.lean ====
section
/-! SUPPORT. The traces of the rules: what they do to the levels, the cycles and register writes they hold, their time, and
that they are legal; and how each of these joins over two traces. -/

namespace Sys2Proof.Laws

open Sys2Proof.Machine Sys2Proof.Safety

/-! ### Levels -/

theorem run_writeTrace (p : Pins) (i d : Word) : p.run (writeTrace i d) = idleWith p d := rfl

theorem run_readTrace (p : Pins) (i v : Word) :
    p.run (readTrace i v) = { idleWith p i with dir := .val .out } := rfl

theorem idleWith_idleWith (p : Pins) (d e : Word) : idleWith (idleWith p d) e = idleWith p e := rfl

@[simp] theorem idleWith_dir (p : Pins) (d : Word) : (idleWith p d).dir = p.dir := rfl

/-- Register writes keep the mode of the data lines. -/
theorem run_writesTrace_dir (p : Pins) (ws : List (Word × Word)) : (p.run (writesTrace ws)).dir = p.dir := by
  induction ws generalizing p with
  | nil => rfl
  | cons w ws ih =>
    simp only [writesTrace, List.flatMap_cons, run_append, run_writeTrace] at ih ⊢
    rw [ih, idleWith_dir]

/-! ### Bus cycles and register writes -/

theorem cyclesFrom_append (p : Pins) (a b : List Event) :
    cyclesFrom p (a ++ b) = cyclesFrom p a ++ cyclesFrom (p.run a) b := by
  induction a generalizing p with
  | nil => rfl
  | cons e es ih => simp [cyclesFrom, ih]

/-- A register write holds one index-write and one data-write cycle. -/
theorem cyclesFrom_writeTrace {p : Pins} (h : p.dir = .val .out) (i d : Word) :
    cyclesFrom p (writeTrace i d) = [.idxw i, .datw d] := by
  simp [writeTrace, cyclesFrom, cycleAt, h]

/-- A register read holds one index-write and one data-read cycle. -/
theorem cyclesFrom_readTrace {p : Pins} (h : p.dir = .val .out) (i v : Word) :
    cyclesFrom p (readTrace i v) = [.idxw i, .datr v] := by
  simp [readTrace, cyclesFrom, cycleAt, h]

/-- The index selected after a list of cycles. -/
def lastSelected : Option Word → List Cycle → Option Word
  | sel, [] => sel
  | _, .idxw i :: cs => lastSelected (some i) cs
  | sel, .datw _ :: cs => lastSelected sel cs
  | sel, .datr _ :: cs => lastSelected sel cs

theorem pairWrites_append (sel : Option Word) (a b : List Cycle) :
    pairWrites sel (a ++ b) = pairWrites sel a ++ pairWrites (lastSelected sel a) b := by
  induction a generalizing sel with
  | nil => rfl
  | cons c cs ih => cases c <;> cases sel <;> simp [pairWrites, lastSelected, ih]

/-- The cycles of register writes are those writes, whatever was selected before. -/
theorem pairWrites_writesTrace {p : Pins} (h : p.dir = .val .out) (sel : Option Word) (ws : List (Word × Word)) :
    pairWrites sel (cyclesFrom p (writesTrace ws)) = ws := by
  induction ws generalizing p sel with
  | nil => rfl
  | cons w ws ih =>
    simp only [writesTrace, List.flatMap_cons, cyclesFrom_append, cyclesFrom_writeTrace h, run_writeTrace] at ih ⊢
    simp only [List.cons_append, List.nil_append, pairWrites]
    rw [ih (by simpa using h)]

/-- What the events after a trace add to its register writes. -/
theorem registerWrites_append (a b : List Event) :
    registerWrites (a ++ b) =
      registerWrites a ++ pairWrites (lastSelected none (cyclesFrom Pins.reset a)) (cyclesFrom (Pins.reset.run a) b) := by
  simp only [registerWrites, cyclesFrom_append, pairWrites_append]

theorem lastWritten_append (i : Word) (a b : List (Word × Word)) :
    lastWritten i (a ++ b) = match lastWritten i b with | some d => some d | none => lastWritten i a := by
  induction b using List.reverseRecOn with
  | nil => simp [lastWritten]
  | append_singleton b w ih =>
    rw [← List.append_assoc]
    simp only [lastWritten, List.foldl_append, List.foldl_cons, List.foldl_nil] at ih ⊢
    by_cases h : w.1 = i <;> simp_all

/-- A register that is not written keeps its last word. -/
theorem lastWritten_eq_none {i : Word} {ws : List (Word × Word)} (h : ∀ w ∈ ws, w.1 ≠ i) : lastWritten i ws = none := by
  induction ws using List.reverseRecOn with
  | nil => rfl
  | append_singleton ws w ih =>
    simp only [lastWritten, List.foldl_append, List.foldl_cons, List.foldl_nil] at ih ⊢
    rw [if_neg (h w (by simp))]
    exact ih (fun v hv => h v (by simp [hv]))

/-! ### Legal levels -/

theorem legalThrough_head {p : Pins} {es : List Event} (h : LegalThrough p es) : Legal p := by
  cases es with
  | nil => exact h
  | cons e es => exact h.1

theorem legalThrough_append (p : Pins) (a b : List Event) :
    LegalThrough p (a ++ b) ↔ LegalThrough p a ∧ LegalThrough (p.run a) b := by
  induction a generalizing p with
  | nil => simp only [List.nil_append, run_nil, LegalThrough]; exact ⟨fun h => ⟨legalThrough_head h, h⟩, fun h => h.2⟩
  | cons e es ih => simp only [List.cons_append, LegalThrough, run_cons, ih, and_assoc]

/-- The levels after a legal trace are legal. -/
theorem legalThrough_run {p : Pins} {es : List Event} (h : LegalThrough p es) : Legal (p.run es) := by
  have := (legalThrough_append p es []).1 (by simpa using h)
  exact this.2

/-- Where the next transaction can start: legal levels, the lines outputs, the chip not selected. -/
abbrev Startable (p : Pins) : Prop := Legal p ∧ p.dir = .val .out ∧ p.cs ≠ .val .low

theorem startable_idleWith {p : Pins} (d : Word) (h : p.dir = .val .out) : Startable (idleWith p d) := by
  simp [Startable, idleWith, Legal, h]

/-- While the chip is not selected no strobe is low. -/
theorem legal_strobes {p : Pins} (h : Legal p) (hc : p.cs ≠ .val .low) : p.wr ≠ .val .low ∧ p.rd ≠ .val .low :=
  ⟨fun hw => hc (h.1 hw).1, fun hr => hc (h.2.1 hr).1⟩

theorem legalThrough_writeTrace {p : Pins} (h : Startable p) (i d : Word) : LegalThrough p (writeTrace i d) := by
  obtain ⟨hl, hd, hc⟩ := h
  obtain ⟨hw, hr⟩ := legal_strobes hl hc
  simp only [writeTrace, LegalThrough, apply_rs, apply_rd, apply_wr, apply_cs, apply_delayUs, apply_drive]
  refine ⟨hl, ?_⟩
  simp only [Legal, hw, hr, hc, hd, false_implies, true_and]
  simp +contextual [hl.2.2.2]

theorem legalThrough_readTrace {p : Pins} (h : Startable p) (i v : Word) : LegalThrough p (readTrace i v) := by
  obtain ⟨hl, hd, hc⟩ := h
  obtain ⟨hw, hr⟩ := legal_strobes hl hc
  simp only [readTrace, LegalThrough, apply_rs, apply_rd, apply_wr, apply_cs, apply_delayUs, apply_drive, apply_dir,
    apply_sample]
  refine ⟨hl, ?_⟩
  simp only [Legal, hw, hr, hc, hd, false_implies, true_and]
  simp +contextual [hl.2.2.2]

/-- Register writes are legal, and leave levels the next transaction can start from. -/
theorem startable_writesTrace {p : Pins} (h : Startable p) (ws : List (Word × Word)) :
    LegalThrough p (writesTrace ws) ∧ Startable (p.run (writesTrace ws)) := by
  induction ws generalizing p with
  | nil => exact ⟨h.1, h⟩
  | cons w ws ih =>
    simp only [writesTrace, List.flatMap_cons, legalThrough_append, run_append, run_writeTrace] at ih ⊢
    obtain ⟨h1, h2⟩ := ih (startable_idleWith w.2 h.2.1)
    exact ⟨⟨legalThrough_writeTrace h _ _, h1⟩, h2⟩

/-- A burst is legal from the levels a transaction can start from. -/
theorem legalThrough_burstTrace {p : Pins} (h : Startable p) (i d : Word) (n : Nat) :
    LegalThrough p (burstTrace i d n) := by
  obtain ⟨hl, hd, hc⟩ := h
  obtain ⟨hw, hr⟩ := legal_strobes hl hc
  have pulses : ∀ (k : Nat) (q : Pins), Legal q → Legal { q with wr := .val .low } → q.wr = .val .high →
      LegalThrough q (List.replicate k pulseTrace).flatten := by
    intro k q hq hlow hwr
    induction k with
    | zero => exact hq
    | succ k ih =>
      have e : ({ q with wr := .val .high } : Pins) = q := by cases q; simp_all
      rw [List.replicate_succ, List.flatten_cons, legalThrough_append, run_pulse, e]
      simp only [pulseTrace, LegalThrough, apply_wr, apply_delayUs, e]
      exact ⟨⟨hq, hlow, hlow, hq⟩, ih⟩
  simp only [burstTrace, legalThrough_append]
  refine ⟨⟨?_, ?_⟩, ?_⟩
  · simp only [LegalThrough, apply_rs, apply_rd, apply_wr, apply_cs, apply_delayUs, apply_drive]
    refine ⟨hl, ?_⟩
    simp only [Legal, hw, hr, hc, hd, false_implies, true_and]
    simp +contextual [hl.2.2.2]
  · apply pulses <;> simp [Legal, hd]
  · rw [run_append, run_pulses _ rfl]
    simp [LegalThrough, Legal, hd]

theorem run_burstTrace (p : Pins) (i d : Word) (n : Nat) : p.run (burstTrace i d n) = idleWith p d := by
  simp [burstTrace, run_append, run_pulses, idleWith]

/-- A non-empty list of register writes leaves the idle levels and its last word. -/
theorem run_writesTrace (p : Pins) (ws : List (Word × Word)) (w : Word × Word) :
    p.run (writesTrace (ws ++ [w])) = idleWith p w.2 := by
  induction ws generalizing p with
  | nil => simp [writesTrace, run_writeTrace]
  | cons x ws ih =>
    simp only [List.cons_append, writesTrace, List.flatMap_cons, run_append, run_writeTrace] at ih ⊢
    rw [ih, idleWith_idleWith]

/-- The levels after a window's writes. -/
theorem run_windowWrites (p : Pins) (c : Config) (xs ys xe ye px py : Word) :
    p.run (writesTrace (windowWrites c xs ys xe ye px py)) = idleWith p (windowLast c ye py) := by
  cases h : c.windowWritesPointer
  · simpa [windowWrites, h, windowLast] using
      run_writesTrace p [(c.reg.hStart, xs), (c.reg.hEnd, xe), (c.reg.vStart, ys)] (c.reg.vEnd, ye)
  · simpa [windowWrites, h, windowLast] using
      run_writesTrace p [(c.reg.hStart, xs), (c.reg.hEnd, xe), (c.reg.vStart, ys), (c.reg.vEnd, ye), (c.reg.ramAddrH, px)]
        (c.reg.ramAddrV, py)

/-! ### Time -/

theorem traceMicros_append (a b : List Event) : traceMicros (a ++ b) = traceMicros a + traceMicros b := by
  simp [traceMicros]

theorem traceMicros_writesTrace (ws : List (Word × Word)) : traceMicros (writesTrace ws) = 5 * ws.length := by
  induction ws with
  | nil => rfl
  | cons w ws ih =>
    simp only [writesTrace, List.flatMap_cons, traceMicros_append] at ih ⊢
    rw [ih]
    simp [traceMicros, writeTrace, eventMicros]
    omega

theorem withoutSamples_append (a b : List Event) : withoutSamples (a ++ b) = withoutSamples a ++ withoutSamples b := by
  simp [withoutSamples]

theorem milliWaits_append (a b : List Event) : milliWaits (a ++ b) = milliWaits a ++ milliWaits b := by
  simp [milliWaits]

/-- A register write waits no milliseconds. -/
theorem milliWaits_writesTrace (ws : List (Word × Word)) : milliWaits (writesTrace ws) = [] := by
  induction ws with
  | nil => rfl
  | cons w ws ih =>
    simp only [writesTrace, List.flatMap_cons, milliWaits_append] at ih ⊢
    rw [ih]; rfl

/-- What a step gained, where its trace is written as the old one and the new events. -/
theorem gained_of_append {s t : State} {es : List Event} (h : t.trace = s.trace ++ es) : gained s t = es := by
  simp [gained, h]

end Sys2Proof.Laws
end

