-- ==== Sys2Proof/Machine/Assembler.lean ====
section
/-! DEFINITION. The assembler text of R102: one command a line, its operands separated by commas, numbers in decimal or with
0x, rotation and register names, and a comment from the semicolon on. No step of the machine uses it. -/

namespace Sys2Proof.Machine

/-- The value of a digit in a base of at most 16. -/
def digitValue (base : Nat) (c : Char) : Option Nat :=
  let v :=
    if '0' ≤ c ∧ c ≤ '9' then c.toNat - '0'.toNat
    else if 'A' ≤ c ∧ c ≤ 'F' then c.toNat - 'A'.toNat + 10
    else if 'a' ≤ c ∧ c ≤ 'f' then c.toNat - 'a'.toNat + 10
    else base
  if v < base then some v else none

/-- The number that a list of digits spells, `acc` being the digits before it. -/
def digitsValue (base : Nat) : Nat → List Char → Option Nat
  | acc, [] => some acc
  | acc, c :: cs =>
      match digitValue base c with
      | some v => digitsValue base (acc * base + v) cs
      | none => none

/-- A number: decimal, or hexadecimal with `0x` (R102). -/
def parseNumber : List Char → Option Nat
  | [] => none
  | ['0', 'x'] => none
  | '0' :: 'x' :: digits => digitsValue 16 0 digits
  | digits => digitsValue 10 0 digits

/-- A number that fits the field (R88). -/
def parseField (width : Nat) (cs : List Char) : Option (BitVec width) :=
  match parseNumber cs with
  | some n => if n < 2 ^ width then some (BitVec.ofNat width n) else none
  | none => none

/-- A rotation operand: its name, or its ordinal (R95, R102). -/
def parseRotation (cs : List Char) : Option Word :=
  if cs = "R0".toList then some 0
  else if cs = "R90".toList then some 1
  else if cs = "R180".toList then some 2
  else if cs = "R270".toList then some 3
  else parseField 16 cs

/-- The parameter names of the register indices (R58). -/
def registerNames (reg : RegMap) : List (String × Word) :=
  [ ("REG.ID", reg.id), ("REG.OSC_START", reg.oscStart), ("REG.DRIVER_OUTPUT_CONTROL", reg.driverOutputControl),
    ("REG.DRIVER_WAVEFORM_CONTROL", reg.driverWaveformControl), ("REG.ENTRY_MODE", reg.entryMode),
    ("REG.RESIZE_CONTROL", reg.resizeControl), ("REG.DISPLAY_CONTROL_1", reg.displayControl1),
    ("REG.DISPLAY_CONTROL_2", reg.displayControl2), ("REG.DISPLAY_CONTROL_3", reg.displayControl3),
    ("REG.DISPLAY_CONTROL_4", reg.displayControl4), ("REG.RGB_IF_CONTROL_1", reg.rgbIfControl1),
    ("REG.FRAME_MARKER_POSITION", reg.frameMarkerPosition), ("REG.RGB_IF_CONTROL_2", reg.rgbIfControl2),
    ("REG.POWER_CONTROL_1", reg.powerControl1), ("REG.POWER_CONTROL_2", reg.powerControl2),
    ("REG.POWER_CONTROL_3", reg.powerControl3), ("REG.POWER_CONTROL_4", reg.powerControl4) ] ++
  [ ("REG.RAM_ADDR_H", reg.ramAddrH), ("REG.RAM_ADDR_V", reg.ramAddrV), ("REG.GRAM", reg.gram),
    ("REG.POWER_CONTROL_7", reg.powerControl7), ("REG.H_START", reg.hStart), ("REG.H_END", reg.hEnd),
    ("REG.V_START", reg.vStart), ("REG.V_END", reg.vEnd),
    ("REG.GAMMA[0]", reg.gamma[0]), ("REG.GAMMA[1]", reg.gamma[1]), ("REG.GAMMA[2]", reg.gamma[2]),
    ("REG.GAMMA[3]", reg.gamma[3]), ("REG.GAMMA[4]", reg.gamma[4]), ("REG.GAMMA[5]", reg.gamma[5]),
    ("REG.GAMMA[6]", reg.gamma[6]), ("REG.GAMMA[7]", reg.gamma[7]), ("REG.GAMMA[8]", reg.gamma[8]),
    ("REG.GAMMA[9]", reg.gamma[9]) ]

/-- The entry of a table under a spelling. -/
def lookupName {α : Type} (cs : List Char) : List (String × α) → Option α
  | [] => none
  | (name, a) :: rest => if cs = name.toList then some a else lookupName cs rest

/-- A register index: its parameter name, or a number (R102). -/
def parseIndex (reg : RegMap) (cs : List Char) : Option Word :=
  match lookupName cs (registerNames reg) with
  | some i => some i
  | none => parseField 16 cs

/-- A command without operands. -/
def asm0 (i : Instr) : List (List Char) → Option Instr
  | [] => some i
  | _ => none

/-- A command with one operand. -/
def asm1 (p : List Char → Option Word) (f : Word → Instr) : List (List Char) → Option Instr
  | [a] => (p a).map f
  | _ => none

/-- A command with two operands, the first of its own kind. -/
def asm2 (p : List Char → Option Word) (f : Word → Word → Instr) : List (List Char) → Option Instr
  | [a, b] =>
      match p a, parseField 16 b with
      | some a, some b => some (f a b)
      | _, _ => none
  | _ => none

/-- A command with three numbers. -/
def asm3 (f : Word → Word → Word → Instr) : List (List Char) → Option Instr
  | [a, b, c] =>
      match parseField 16 a, parseField 16 b, parseField 16 c with
      | some a, some b, some c => some (f a b c)
      | _, _, _ => none
  | _ => none

/-- A command with four numbers. -/
def asm4 (f : Word → Word → Word → Word → Instr) : List (List Char) → Option Instr
  | [a, b, c, d] =>
      match parseField 16 a, parseField 16 b, parseField 16 c, parseField 16 d with
      | some a, some b, some c, some d => some (f a b c d)
      | _, _, _, _ => none
  | _ => none

/-- A command with five numbers. -/
def asm5 (f : Word → Word → Word → Word → Word → Instr) : List (List Char) → Option Instr
  | [a, b, c, d, e] =>
      match parseField 16 a, parseField 16 b, parseField 16 c, parseField 16 d, parseField 16 e with
      | some a, some b, some c, some d, some e => some (f a b c d e)
      | _, _, _, _, _ => none
  | _ => none

/-- The burst: a register index, a word and a count (R97). -/
def asmBurst (reg : RegMap) : List (List Char) → Option Instr
  | [a, b, n] =>
      match parseIndex reg a, parseField 16 b, parseField 32 n with
      | some a, some b, some n => some (.writeRegisterBurst a b n)
      | _, _, _ => none
  | _ => none

/-- Mnemonics and operands in the order of the table of R92, and `SIZE` (R103). -/
def asmTable (reg : RegMap) : List (String × (List (List Char) → Option Instr)) :=
  [ ("SET_OUTPUT_MODE", asm0 .setOutputMode), ("SET_INPUT_MODE", asm0 .setInputMode),
    ("DRIVE_BUS", asm1 (parseField 16) .driveBus), ("SAMPLE_BUS", asm0 .sampleBus), ("TXN_BEGIN", asm0 .txnBegin),
    ("TXN_END", asm0 .txnEnd), ("BACKLIGHT_ON", asm0 .backlightOn),
    ("SELECT_REGISTER", asm1 (parseIndex reg) .selectRegister), ("WRITE_DATA_WORD", asm1 (parseField 16) .writeDataWord),
    ("READ_DATA_WORD", asm0 .readDataWord), ("WR_PULSE", asm0 .wrPulse),
    ("WRITE_REGISTER", asm2 (parseIndex reg) .writeRegister), ("READ_REGISTER", asm1 (parseIndex reg) .readRegister),
    ("WRITE_REGISTER_BURST", asmBurst reg) ] ++
  [ ("SET_ROTATION", asm1 parseRotation .setRotation), ("LOGICAL_SIZE", asm0 .logicalSize), ("SIZE", asm0 .logicalSize),
    ("TO_NATIVE", asm4 .toNative), ("MAP_RECT", asm4 .mapRect), ("MAX_BOTTOM_RIGHT", asm0 .maxBottomRight),
    ("ROTATION_FROM_ID", asm1 (parseField 16) .rotationFromId), ("CONSTRUCT", asm0 .construct),
    ("INITIALIZE", asm0 .initialise), ("SET_WINDOW", asm4 .setWindow), ("RESET_WINDOW", asm0 .resetWindow),
    ("SET_POINTER", asm2 (parseField 16) .setPointer), ("DRAW_PIXEL", asm3 .drawPixel),
    ("FILL_RECTANGLE", asm5 .fillRectangle) ]

/-- A space or a tab. -/
def isBlank (c : Char) : Bool := c == ' ' || c == '\t'

/-- The text without the blanks around it. -/
def trimBlanks (cs : List Char) : List Char := ((cs.dropWhile isBlank).reverse.dropWhile isBlank).reverse

/-- The parts of a text between commas, `part` being the part read so far, backwards. -/
def splitCommas : List Char → List Char → List (List Char)
  | part, [] => [trimBlanks part.reverse]
  | part, c :: cs => if c = ',' then trimBlanks part.reverse :: splitCommas [] cs else splitCommas (c :: part) cs

/-- The operands of a line: none where nothing stands after the mnemonic. -/
def operandTexts (cs : List Char) : List (List Char) :=
  match trimBlanks cs with
  | [] => []
  | text => splitCommas [] text

/-- What a line of assembler text holds (R102). -/
inductive AsmLine
  /-- Nothing but blanks and a comment. -/
  | empty
  /-- A command. -/
  | command (i : Instr)
  /-- Not a line of the syntax. -/
  | malformed
deriving DecidableEq, Repr

/-- One line of assembler text. -/
def assembleLine (reg : RegMap) (line : String) : AsmLine :=
  let text := trimBlanks (line.toList.takeWhile (fun c => c != ';'))
  match text with
  | [] => .empty
  | text =>
      match lookupName (text.takeWhile (fun c => !isBlank c)) (asmTable reg) with
      | none => .malformed
      | some form =>
          match form (operandTexts (text.dropWhile (fun c => !isBlank c))) with
          | some i => .command i
          | none => .malformed

end Sys2Proof.Machine
end

