-- ==== Sys2Proof/Tests/Slice0.lean ====
section
/-! SUPPORT. The model's own tests, each expected result from spec/95_test_vectors.md or a rule's example (named before
each), and for every obligation with hypotheses a witness that meets them. -/

namespace Sys2Proof.Tests

open Sys2Proof Sys2Proof.Machine Sys2Proof.Safety Sys2Proof.Laws

/-! ### States the tests start from -/

/-- Concrete words for the constants of `INITIALIZE`, which the spec leaves open. -/
def tInit : InitWords where
  driverOutputControl := 0x0100
  driverWaveformControl := 0x0700
  resizeControl := 0x0004
  displayControl2 := 0x0202
  displayControl3 := 0x0009
  displayControl4 := 0x000A
  rgbIfControl1 := 0x000C
  frameMarkerPosition := 0x000D
  rgbIfControl2 := 0x000F
  pwr1Low := 0x1001
  pwr2Low := 0x1102
  pwr3Low := 0x1203
  pwr4Low := 0x1304
  pwr1Op := 0x2001
  pwr2Op := 0x2102
  pwr3Op := 0x2203
  pwr4Op := 0x2304
  pwr7Op := 0x2905
  gamma := #v[0x3000, 0x3001, 0x3002, 0x3003, 0x3004, 0x3005, 0x3006, 0x3007, 0x3008, 0x3009]

/-- The configuration of the vectors: default indices and masks, `HOST_LEVEL = INTERNAL`. -/
def tCfg : Config :=
  { Config.default with init := tInit, initTail := [(0x60, 0xA700), (0x98, 0x0001)], hostLevel := .internal }

/-- The start state of sections 2 and 3: initialised, idle, output mode. -/
def idle : State :=
  { State.reset with
    pins := { cs := .val .high, rs := .val .high, wr := .val .high, rd := .val .high, bl := .val .high,
              dir := .val .out, dout := .val 0x0133 }
    lifecycle := .initialised
    cfg := tCfg }

/-- After `CONSTRUCT`, before `INITIALIZE`: no line has a level yet. -/
def fresh : State := { State.reset with lifecycle := .constructed, cfg := tCfg }

/-- Input mode. -/
def inputMode : State := { idle with pins := { idle.pins with dir := .val .inp } }

/-- Inside a transaction. -/
def inTxn : State := { idle with pins := { idle.pins with cs := .val .low }, txnOpen := true }

/-- After a select in the transaction. -/
def selected : State := { inTxn with pins := { inTxn.pins with dout := .val 0x0022 }, txnSelected := true }

/-- After a data word in the transaction. -/
def loaded : State := { selected with pins := { selected.pins with dout := .val 0xF800 }, txnLoaded := true }

/-- With a rotation. -/
def turned (r : Rotation) : State := { idle with rot := r }

/-- With the reference device as partner, which holds 0x9325 in register 0. -/
def answered : State := { idle with trace := .dir .out :: writeTrace 0x0000 0x9325, cfg := { tCfg with partner := .reference } }

/-- The host may issue `PUBLIC` commands only. -/
def publicHost (s : State) : State := { s with cfg := { s.cfg with hostLevel := .pub } }

/-- The next state, if there is one. -/
def after : Answer → Option State
  | .next t => some t
  | .fault f => nomatch f
  | .refused _ => none

/-- The refusal, if there is one. -/
def refusal : Answer → Option Refusal
  | .next _ => none
  | .fault f => nomatch f
  | .refused r => some r

/-- The events an instruction adds. -/
def events (i : Instr) (s : State) : Option (List Event) := (after (exec i s)).map (gained s)

/-- The bus cycles an instruction adds. -/
def cycles (i : Instr) (s : State) : Option (List Cycle) := (events i s).map (cyclesFrom s.pins)

/-- The register writes an instruction adds. -/
def writes (i : Instr) (s : State) : Option (List (Word × Word)) := (cycles i s).map (pairWrites none)

/-- The result word of an instruction. -/
def resultWord (i : Instr) (s : State) : Option (Latch ResultWord) := (after (exec i s)).map State.res

/-! ### WellFormed -/

/-- R146: a burst of count 0; of count 1 it is well formed. -/
theorem test_wf_burst : ¬ (Instr.writeRegisterBurst 0x22 0x07E0 0).WellFormed ∧
    (Instr.writeRegisterBurst 0x22 0x07E0 1).WellFormed := by decide

/-- R184: a window out of order on one axis; with start = end it is well formed. -/
theorem test_wf_window : ¬ (Instr.setWindow 5 1 3 9).WellFormed ∧ ¬ (Instr.setWindow 1 9 3 1).WellFormed ∧
    (Instr.setWindow 5 5 5 5).WellFormed := by decide

/-! ### Decoding: words written out bit by bit from R82 to R84, R87, R92 -/

/-- Parallel Bus, PB4: OP 00000011, Z 0, A 0000000000100010. -/
theorem test_decode_drive_bus :
    decode (.command (0b00000011#8 ++ 0b00000000#8 ++ 0b0000000000100010#16 ++ 0#96)) = .ok (.driveBus 0x0022) := by decide

/-- Register Protocol, ENC8: A 0022, B 07E0, N 00012C00. -/
theorem test_decode_burst :
    decode (.command (0b00010110#8 ++ 0b00000000#8 ++ 0b0000000000100010#16 ++ 0b0000011111100000#16 ++ 0#48 ++
      0b00000000000000010010110000000000#32)) = .ok (.writeRegisterBurst 0x0022 0x07E0 76800) := by decide

/-- Mapper, the word of section 4.2: A 000A, B 0014, C 00F0, D 0140. -/
theorem test_decode_to_native :
    decode (.command (0b00100010#8 ++ 0#8 ++ 0b0000000000001010#16 ++ 0b0000000000010100#16 ++ 0b0000000011110000#16 ++
      0b0000000101000000#16 ++ 0#48)) = .ok (.toNative 10 20 240 320) := by decide

/-- Sequencer, ENC6: A 1, B 1, C 2, D 3, E 07E0. -/
theorem test_decode_fill :
    decode (.command (0b00110110#8 ++ 0#8 ++ 1#16 ++ 1#16 ++ 2#16 ++ 3#16 ++ 0b0000011111100000#16 ++ 0#32)) =
      .ok (.fillRectangle 1 1 2 3 0x07E0) := by decide

/-- Bus cycles, R82 to R84, ENC9 to ENC11. -/
theorem test_decode_cycles :
    decode (.busCycle (0b0001#4 ++ 0b0000000000100010#16)) = .ok (.idxw 0x0022) ∧
    decode (.busCycle (0b0101#4 ++ 0b1111100000000000#16)) = .ok (.datw 0xF800) ∧
    decode (.busCycle (0b0110#4 ++ 0b1001001100100101#16)) = .ok (.datr 0x9325) := by decide

/-- ENC1 to ENC5. -/
theorem test_decode_illegal :
    decode (.command 0) = .error .unassignedOpcode ∧
    decode (.command 0x17000000000000000000000000000000) = .error .unassignedOpcode ∧
    decode (.command 0x21010000000000000000000000000000) = .error .unusedFieldNonzero ∧
    decode (.command 0x21000001000000000000000000000000) = .error .unusedFieldNonzero ∧
    decode (.command 0x350000000000F8000000000000000001) = .error .unusedFieldNonzero := by decide

/-- ENC12: the control bits PDBD never produces. -/
theorem test_decode_no_cycle :
    [0b0000#4, 0b0010#4, 0b0100#4, 0b1000#4, 0b1001#4, 0b1010#4, 0b1011#4, 0b1100#4, 0b1101#4, 0b1110#4].all
      (fun c => decide (decode (.busCycle (packCycle c 0)) = .error .noSuchCycle)) = true := by decide

/-- The encoder gives the words of the vectors (PB1, RP9, M5, Q4, Q12, ENC9). -/
theorem test_encode :
    encode .setOutputMode = .command 0x01000000000000000000000000000000 ∧
    encode (.writeRegister 0x0007 0x0133) = .command 0x14000007013300000000000000000000 ∧
    encode (.setRotation 1) = .command 0x20000001000000000000000000000000 ∧
    encode (.setPointer 239 319) = .command 0x340000EF013F00000000000000000000 ∧
    encode (.drawPixel 319 239 0x001F) = .command 0x3500013F00EF001F0000000000000000 ∧
    encode (.idxw 0x0022) = .busCycle 0x10022 := by decide

/-! ### Parallel Bus -/

/-- PB1. -/
theorem test_set_output_mode : events .setOutputMode inputMode = some [.dir .out] ∧
    (after (exec .setOutputMode inputMode)).map (fun t => t.pins.dir) = some (.val .out) := by decide

/-- PB3: `DOUT` is kept. -/
theorem test_set_input_mode : events .setInputMode idle = some [.dir .inp] ∧
    (after (exec .setInputMode idle)).map (fun t => t.pins.dout) = some (.val 0x0133) := by decide

/-- PB4. -/
theorem test_drive_bus : events (.driveBus 0x0022) idle = some [.drive 0x0022] ∧
    (after (exec (.driveBus 0x0022) idle)).map (fun t => t.pins.dout) = some (.val 0x0022) := by decide

/-- PB6. -/
theorem test_drive_bus_refused : refusal (exec (.driveBus 0x1234) inputMode) = some .notOutputMode := by decide

/-- PB7, with the device selected on register 0 during a read strobe. -/
theorem test_sample_bus :
    resultWord .sampleBus
      { answered with
        pins := { idle.pins with cs := .val .low, rd := .val .low, dir := .val .inp }
        trace := answered.trace ++ [.pin .cs .low, .dir .inp, .pin .rd .low] } =
      some (.val 0x000000000000009325) := by decide

/-- PB9. -/
theorem test_sample_bus_refused : refusal (exec .sampleBus idle) = some .notInputMode := by decide

/-- PB10, PB14: from levels never written too. -/
theorem test_txn_begin :
    events .txnBegin fresh = some [.pin .rs .high, .pin .rd .high, .pin .wr .high, .pin .cs .low, .delayUs 1] ∧
    (after (exec .txnBegin fresh)).map (fun t => (t.pins.cs, t.pins.rs, t.pins.wr, t.pins.rd, t.pins.dir)) =
      some (.val .low, .val .high, .val .high, .val .high, .bot) := by decide

/-- PB11. -/
theorem test_txn_begin_refused : refusal (exec .txnBegin inTxn) = some .nestedTransaction := by decide

/-- PB12. -/
theorem test_txn_end : events .txnEnd inTxn = some [.delayUs 1, .pin .cs .high] ∧
    (after (exec .txnEnd inTxn)).map (fun t => (t.pins.cs, t.txnOpen)) = some (.val .high, false) := by decide

/-- PB13. -/
theorem test_txn_end_refused : refusal (exec .txnEnd idle) = some .noTransaction := by decide

/-- PB15. -/
theorem test_backlight_on : events .backlightOn fresh = some [.pin .bl .high] ∧
    (after (exec .backlightOn fresh)).map (fun t => t.pins.bl) = some (.val .high) := by decide

/-- D6: the enabled backlight line carries `BL_ACTIVE_LEVEL`. -/
theorem test_backlight_level : idle.pins.backlightLevel .low = .val .low ∧ fresh.pins.backlightLevel .low = .bot := by decide

/-- PB17: an empty bracket. -/
theorem test_empty_bracket :
    (after (execPseudo (.withTransaction []) idle)).map (gained idle) =
      some [.pin .rs .high, .pin .rd .high, .pin .wr .high, .pin .cs .low, .delayUs 1, .delayUs 1, .pin .cs .high] := by
  decide

/-! ### Register Protocol -/

/-- RP1. -/
theorem test_select_register :
    events (.selectRegister 0x0022) inTxn =
      some [.pin .rs .low, .drive 0x0022, .pin .wr .low, .delayUs 1, .pin .wr .high, .pin .rs .high] := by decide

/-- RP2. -/
theorem test_select_register_refused : refusal (exec (.selectRegister 0x0022) idle) = some .noTransaction := by decide

/-- RP3. -/
theorem test_write_data_word :
    events (.writeDataWord 0xF800) selected = some [.drive 0xF800, .pin .wr .low, .delayUs 1, .pin .wr .high] := by decide

/-- RP4. -/
theorem test_write_data_word_refused : refusal (exec (.writeDataWord 0xF800) inTxn) = some .noRegisterSelected := by decide

/-- RP5, with the reference device holding 0x9325. -/
theorem test_read_data_word :
    let s := { answered with
      pins := { idle.pins with cs := .val .low }, trace := answered.trace ++ [.pin .cs .low], txnOpen := true,
      txnSelected := true }
    events .readDataWord s =
      some [.dir .inp, .pin .rd .low, .delayUs 1, .sample 0x9325, .pin .rd .high, .dir .out] ∧
    resultWord .readDataWord s = some (.val 0x000000000000009325) := by decide

/-- RP8: after a read no data word is loaded. -/
theorem test_read_unloads :
    (after (exec .readDataWord loaded)).map (fun t => refusal (exec .wrPulse t)) = some (some .noDataWord) := by decide

/-- RP6. -/
theorem test_wr_pulse : events .wrPulse loaded = some [.pin .wr .low, .delayUs 1, .pin .wr .high] ∧
    (after (exec .wrPulse loaded)).map (fun t => t.pins.dout) = some (.val 0xF800) := by decide

/-- RP7. -/
theorem test_wr_pulse_refused : refusal (exec .wrPulse selected) = some .noDataWord := by decide

/-- RP9, event by event. -/
theorem test_write_register :
    events (.writeRegister 0x0007 0x0133) idle =
      some [.pin .rs .high, .pin .rd .high, .pin .wr .high, .pin .cs .low, .delayUs 1, .pin .rs .low, .drive 0x0007,
        .pin .wr .low, .delayUs 1, .pin .wr .high, .pin .rs .high, .delayUs 1, .drive 0x0133, .pin .wr .low, .delayUs 1,
        .pin .wr .high, .delayUs 1, .pin .cs .high] := by decide

/-- RP11: an index outside 0x00 to 0x98 is passed through. -/
theorem test_write_register_unchecked :
    cycles (.writeRegister 0xFFFF 0xFFFF) idle = some [.idxw 0xFFFF, .datw 0xFFFF] := by decide

/-- RP12, event by event, with the reference device holding 0x9325. -/
theorem test_read_register :
    events (.readRegister 0x0000) answered =
      some [.pin .rs .high, .pin .rd .high, .pin .wr .high, .pin .cs .low, .delayUs 1, .pin .rs .low, .drive 0x0000,
        .pin .wr .low, .delayUs 1, .pin .wr .high, .pin .rs .high, .delayUs 1, .dir .inp, .pin .rd .low, .delayUs 1,
        .sample 0x9325, .pin .rd .high, .dir .out, .delayUs 1, .pin .cs .high] ∧
    resultWord (.readRegister 0x0000) answered = some (.val 0x000000000000009325) := by decide

/-- RP15: 27 events, four data cycles. -/
theorem test_burst :
    (events (.writeRegisterBurst 0x0022 0x07E0 4) idle).map List.length = some 27 ∧
    cycles (.writeRegisterBurst 0x0022 0x07E0 4) idle =
      some [.idxw 0x0022, .datw 0x07E0, .datw 0x07E0, .datw 0x07E0, .datw 0x07E0] := by decide

/-- RP17. -/
theorem test_burst_refused : refusal (exec (.writeRegisterBurst 0x0022 0x07E0 0) idle) = some .zeroCount := by decide

/-- The table under section 3: the pin vectors at events 5, 8, 10 and 14 of `W(0x0022, 0xF800)`. -/
theorem test_pin_vectors :
    (idle.pins.run ((writeTrace 0x0022 0xF800).take 8)).vector 0x0022 = some 0x10022 ∧
    (idle.pins.run ((writeTrace 0x0022 0xF800).take 10)).vector 0x0022 = some 0x30022 ∧
    (idle.pins.run ((writeTrace 0x0022 0xF800).take 14)).vector 0xF800 = some 0x5F800 ∧
    (idle.pins.run ((writeTrace 0x0022 0xF800).take 14)).dataLines = .val 0xF800 := by decide

/-! ### Rotation and mapper -/

/-- M5: the four entry-mode words. -/
theorem test_set_rotation :
    writes (.setRotation 0) idle = some [(0x0003, 0x1030)] ∧ writes (.setRotation 1) idle = some [(0x0003, 0x1028)] ∧
    writes (.setRotation 2) idle = some [(0x0003, 0x1000)] ∧ writes (.setRotation 3) idle = some [(0x0003, 0x1018)] := by
  decide

/-- M6. -/
theorem test_set_rotation_invalid :
    resultWord (.setRotation 4) (turned .r90) = some (.val 0x040000000000000000) ∧
    (after (exec (.setRotation 4) (turned .r90))).map (fun t => (t.rot, t.trace)) = some (.r90, []) := by decide

/-- M2. -/
theorem test_logical_size :
    resultWord .logicalSize (turned .r0) = some (.val 0x0000000000014000F0) ∧
    resultWord .logicalSize (turned .r270) = some (.val 0x000000000000F00140) := by decide

/-- Section 4.2, the point (10, 20); the `R90` result word is the one printed there. -/
theorem test_to_native :
    resultWord (.toNative 10 20 240 320) (turned .r90) = some (.val 0x0000000000000A00DB) ∧
    toNativePoint .r0 ⟨10, 20⟩ (nativeSize tCfg) = ⟨10, 20⟩ ∧ toNativePoint .r180 ⟨10, 20⟩ (nativeSize tCfg) = ⟨229, 299⟩ ∧
    toNativePoint .r270 ⟨10, 20⟩ (nativeSize tCfg) = ⟨20, 309⟩ := by decide

/-- Section 4.3: the way back of the second and sixth lines, and the wrong size of the remark. -/
theorem test_round_trip :
    resultWord (.toNative 219 10 320 240) (turned .r270) = some (.val 0x0000000000001400_0A) ∧
    toNativePoint .r90 ⟨20, 309⟩ ⟨320, 240⟩ = ⟨10, 20⟩ ∧ toNativePoint .r270 ⟨219, 10⟩ (nativeSize tCfg) = ⟨10, 100⟩ := by decide

/-- Section 4.4, the `R90` line, its result word. -/
theorem test_map_rect :
    resultWord (.mapRect 10 20 29 59) (turned .r90) = some (.val 0x00001D00DB000A00B4) := by decide

/-- Section 4.4, `R180` and `R270`. -/
theorem test_map_rect_turned :
    mapRectangle tCfg .r180 ⟨10, 20⟩ ⟨29, 59⟩ = ⟨⟨210, 260⟩, ⟨229, 299⟩⟩ ∧
    mapRectangle tCfg .r270 ⟨10, 20⟩ ⟨29, 59⟩ = ⟨⟨20, 290⟩, ⟨59, 309⟩⟩ := by decide

/-- M3. -/
theorem test_max_bottom_right :
    resultWord .maxBottomRight (turned .r180) = some (.val 0x00000000000_13F00EF) ∧
    resultWord .maxBottomRight (turned .r90) = some (.val 0x00000000000_0EF013F) := by decide

/-- M1. -/
theorem test_rotation_from_id :
    resultWord (.rotationFromId 3) idle = some (.val 0x000000000000000003) := by decide

/-- M1f: not reduced mod 4. -/
theorem test_rotation_from_id_invalid :
    resultWord (.rotationFromId 65535) idle = some (.val 0x040000000000000000) := by decide

/-- R160: the inverses. -/
theorem test_rotation_inverse :
    [Rotation.r0, .r90, .r180, .r270].map Rotation.inv = [.r0, .r270, .r180, .r90] ∧
    Rotation.add .r270 .r180 = .r90 := by decide

/-! ### Display sequencer -/

/-- Q1. -/
theorem test_construct :
    (after (exec .construct State.reset)).map (fun t => (t.rot, t.lifecycle, t.pins, t.trace)) =
      some (.r0, .constructed, Pins.reset, []) := by decide

/-- Q2. -/
theorem test_construct_refused : refusal (exec .construct fresh) = some .alreadyConstructed := by decide

/-- Section 5.6, with a tail of two pairs: 730 + 2 * 18 events; the first three and the last register writes. -/
theorem test_initialize :
    (events .initialise fresh).map (fun es => (es.length, es.take 3)) =
      some (766, [.pin .bl .high, .dir .out, .delayMs 130]) ∧
    (writes .initialise fresh).map (fun ws => (ws.take 2, ws.drop 38)) =
      some ([(0x0000, 0x0001), (0x0001, 0x0100)], [(0x60, 0xA700), (0x98, 0x0001), (0x0007, 0x0133)]) := by decide +kernel

/-- Section 5.6, lines 29 to 32. -/
theorem test_initialize_middle :
    (writes .initialise (turned .r270)).map (fun ws => (ws.drop 28).take 10) =
      some [(0x003D, 0x3009), (0x0003, 0x1030), (0x0050, 0), (0x0051, 239), (0x0052, 0), (0x0053, 319), (0x0020, 0),
        (0x0021, 0), (0x0020, 0), (0x0021, 0)] := by decide +kernel

/-- Q6. -/
theorem test_set_window :
    writes (.setWindow 180 10 219 29) idle =
      some [(0x0050, 180), (0x0051, 219), (0x0052, 10), (0x0053, 29), (0x0020, 180), (0x0021, 10)] := by decide

/-- Q7. -/
theorem test_set_window_without_pointer :
    writes (.setWindow 180 10 219 29) { idle with cfg := { tCfg with windowWritesPointer := false } } =
      some [(0x0050, 180), (0x0051, 219), (0x0052, 10), (0x0053, 29)] := by decide

/-- Q9: the rotation is not consulted. -/
theorem test_reset_window :
    writes .resetWindow (turned .r90) =
      some [(0x0050, 0), (0x0051, 239), (0x0052, 0), (0x0053, 319), (0x0020, 0), (0x0021, 0)] := by decide

/-- Q4. -/
theorem test_set_pointer : writes (.setPointer 239 319) idle = some [(0x0020, 239), (0x0021, 319)] := by decide

/-- Q10. -/
theorem test_draw_pixel :
    writes (.drawPixel 0 0 0xF800) (turned .r90) = some [(0x0020, 239), (0x0021, 0), (0x0022, 0xF800)] := by decide

/-- Q12. -/
theorem test_draw_pixel_corner :
    writes (.drawPixel 319 239 0x001F) (turned .r270) = some [(0x0020, 239), (0x0021, 0), (0x0022, 0x001F)] := by decide

/-- P2. -/
theorem test_fill_rectangle :
    (events (.fillRectangle 1 1 2 3 0x07E0) idle).map List.length = some 255 ∧
    writes (.fillRectangle 1 1 2 3 0x07E0) idle =
      some ([(0x0050, 1), (0x0051, 2), (0x0052, 1), (0x0053, 3), (0x0020, 1), (0x0021, 1)] ++
        List.replicate 8 (0x0022, 0x07E0) ++
        [(0x0050, 0), (0x0051, 239), (0x0052, 0), (0x0053, 319), (0x0020, 0), (0x0021, 0)]) := by decide +kernel

/-- Q18, Q19: either axis. -/
theorem test_fill_rectangle_invalid :
    resultWord (.fillRectangle 5 1 3 9 0xFFFF) idle = some (.val 0x030000000000000000) ∧
    resultWord (.fillRectangle 1 9 3 1 0xFFFF) idle = some (.val 0x030000000000000000) ∧
    events (.fillRectangle 5 1 3 9 0xFFFF) idle = some [] := by decide

/-- Section 5.4. -/
theorem test_fill_count :
    [(1, 1), (3, 1), (2, 2), (5, 1), (2, 3), (7, 1), (4, 2), (3, 3), (20, 40), (239, 319), (240, 320)].map
      (fun p => fillCount tCfg p.1 p.2) = [4, 4, 4, 8, 8, 8, 8, 12, 800, 76244, 76800] := by decide

/-! ### Bus-cycle rows, the port, the reference device, the text -/

/-- ENC9 to ENC11 as cycles on the lines. -/
theorem test_bus_cycles :
    cycles (.idxw 0x0022) inTxn = some [.idxw 0x0022] ∧ cycles (.datw 0xF800) selected = some [.datw 0xF800] ∧
    cycles (.datr 0x9325) selected = some [.datr 0x9325] := by decide

/-- PB18: an `INTERNAL` command of a `PUBLIC` host. -/
theorem test_step_internal_refused :
    refusal (step { publicHost idle with requests := [encode .setOutputMode] }) = some .internalCommand := by decide

/-- Table rows run as the first instruction after reset: a command with operands, and a bus cycle. -/
theorem test_step_from_reset :
    (after (step (State.reset.withFetchWord 128 0x3600000500050005000500FF00000000))).map State.res = some (.val 0) ∧
    (after (step (State.reset.withFetchWord 20 0x69325))).map State.res = some (.val 0x9325) := by decide

/-- R66: what the device holds after P2. -/
theorem test_reference_device :
    (events (.fillRectangle 1 1 2 3 0x07E0) idle).map
      (fun es =>
        let d := RefDevice.watchFrom 0x22 idle.pins RefDevice.blank es
        (d.gramLog, [0x50, 0x51, 0x52, 0x53].map (fun i => getReg i d.regs), d.active)) =
      some (List.replicate 8 0x07E0, [some 0, some 239, some 0, some 319], false) := by decide

/-- R102: the example line, a named rotation and register, a comment, and text that is no command. -/
theorem test_assembler :
    assembleLine {} "FILL_RECTANGLE 1, 1, 2, 3, 0x07E0" = .command (.fillRectangle 1 1 2 3 0x07E0) ∧
    assembleLine {} "SET_ROTATION R90   ; turn" = .command (.setRotation 1) ∧
    assembleLine {} "  WRITE_REGISTER REG.GRAM, 0xF800" = .command (.writeRegister 0x0022 0xF800) ∧
    assembleLine {} "; nothing" = .empty ∧ assembleLine {} "DRIVE_BUS 65536" = .malformed := by decide

/-! ### Witnesses: for every obligation with hypotheses, a state and operands that meet them, clause by clause -/

/-- `idle` is not in the way of any bus command; `fresh` and `inputMode` and `inTxn` are not `BusFree`, each for its own
reason. -/
theorem witness_BusFree : (Constructed idle ∧ BusFree idle) ∧ (Constructed fresh ∧ ¬ BusFree fresh) ∧
    (Constructed inputMode ∧ ¬ BusFree inputMode) ∧ (Constructed inTxn ∧ ¬ BusFree inTxn) := by decide

theorem witness_EncodeOfDecode : decode (.command 0x21000000000000000000000000000000) = .ok .logicalSize ∧
    decode (.busCycle 0x6FFFF) = .ok (.datr 0xFFFF) := by decide

/-- The values next to assigned ones. -/
theorem witness_UnassignedOpcodesAreIllegal :
    [0x00#8, 0x08#8, 0x0F#8, 0x17#8, 0x1F#8, 0x26#8, 0x2F#8, 0x37#8, 0xFF#8].all (fun o =>
      ! [0x01#8, 0x02#8, 0x03#8, 0x04#8, 0x05#8, 0x06#8, 0x07#8, 0x10#8, 0x11#8, 0x12#8, 0x13#8, 0x14#8, 0x15#8, 0x16#8,
        0x20#8, 0x21#8, 0x22#8, 0x23#8, 0x24#8, 0x25#8, 0x30#8, 0x31#8, 0x32#8, 0x33#8, 0x34#8, 0x35#8, 0x36#8].contains
        ((o ++ 0#120 : CommandWord).extractLsb' 120 8)) = true := by decide

/-- A finished command of each kind of result exists: the state with that result. -/
theorem witness_ResultWordLayout :
    ({ idle with result := .bot } : State).result = .bot ∧
    ({ idle with result := .val (.err .invalidRotationId) } : State).result = .val (.err .invalidRotationId) ∧
    ({ idle with result := .val (.ok .unit) } : State).result = .val (.ok .unit) ∧
    ({ idle with result := .val (.ok (.word 0xFFFF)) } : State).result = .val (.ok (.word 0xFFFF)) ∧
    ({ idle with result := .val (.ok (.point 1 2)) } : State).result = .val (.ok (.point 1 2)) ∧
    ({ idle with result := .val (.ok (.size 240 320)) } : State).result = .val (.ok (.size 240 320)) ∧
    ({ idle with result := .val (.ok (.rect 1 2 3 4)) } : State).result = .val (.ok (.rect 1 2 3 4)) ∧
    ({ idle with result := .val (.ok (.rotation .r270)) } : State).result = .val (.ok (.rotation .r270)) := by decide

/-- A `PUBLIC` command of a `PUBLIC` host, and an `INTERNAL` one of an `INTERNAL` host. -/
theorem witness_StepRunsTheDecodedCommand :
    (decode (encode .logicalSize) = .ok .logicalSize ∧ Instr.logicalSize.level = .pub ∧
      (publicHost idle).cfg.hostLevel = .pub) ∧
    (decode (encode (.driveBus 0xFFFF)) = .ok (.driveBus 0xFFFF) ∧ (Instr.driveBus 0xFFFF).level = .internal ∧
      idle.cfg.hostLevel = .internal) := by decide

theorem witness_StepRefusesIllegalAndInternalWords :
    decode (.command 0) = .error .unassignedOpcode ∧
    (decode (encode .resetWindow) = .ok .resetWindow ∧ Instr.resetWindow.level = .internal ∧
      (publicHost idle).cfg.hostLevel = .pub) ∧
    idle.requests = [] := by decide

theorem witness_EveryAdmittedInstructionCompletes :
    (Instr.writeRegisterBurst 0 0 1).WellFormed ∧ (Instr.setWindow 239 319 239 319).WellFormed ∧
    (Instr.datr 0xFFFF).WellFormed := by decide

theorem witness_LifecycleAdmitsByPhase :
    (State.reset.lifecycle = .unconstructed ∧ Instr.initialise ≠ .construct) ∧ fresh.lifecycle ≠ .unconstructed ∧
    fresh.lifecycle = .constructed := by decide

theorem witness_ModeSwitchesSetDirOnly : Constructed fresh ∧ Constructed inputMode ∧ Constructed inTxn := by decide

/-- Not in output mode: input mode, and no mode yet. -/
theorem witness_DriveBusLoadsDout : (Constructed idle ∧ idle.pins.dir = .val .out) ∧
    (Constructed inputMode ∧ inputMode.pins.dir ≠ .val .out) ∧ (Constructed fresh ∧ fresh.pins.dir ≠ .val .out) := by decide

theorem witness_SampleBusReportsTruncatedPort :
    (Constructed inputMode ∧ inputMode.pins.dir = .val .inp ∧ inputMode.cfg.partner = .unconstrained) ∧
    (Constructed idle ∧ idle.pins.dir ≠ .val .inp) ∧ (Constructed fresh ∧ fresh.pins.dir ≠ .val .inp) := by decide

theorem witness_TxnBeginSelectsTheChip : (Constructed fresh ∧ fresh.txnOpen = false) ∧
    (Constructed inTxn ∧ inTxn.txnOpen = true) := by decide

theorem witness_TxnEndDeselectsTheChip : (Constructed inTxn ∧ inTxn.txnOpen = true) ∧
    (Constructed idle ∧ idle.txnOpen = false) := by decide

/-- A body of commands that ends, and the empty body. -/
theorem witness_BracketEndsDeselected :
    (∃ t, execBracket [.selectRegister 0x22, .writeDataWord 0xF800, .wrPulse] idle = .next t) ∧
    (Constructed fresh ∧ fresh.txnOpen = false) := ⟨⟨_, rfl⟩, by decide⟩

theorem witness_BacklightOnSetsBl : Constructed fresh ∧ idle.pins.bl = .val .high := by decide

theorem witness_SelectRegisterWritesTheIndex :
    (Constructed inTxn ∧ inTxn.txnOpen = true ∧ inTxn.pins.dir = .val .out) ∧
    (Constructed idle ∧ ¬ (idle.txnOpen = true ∧ idle.pins.dir = .val .out)) ∧
    (inTxn.pins.cs = .val .low ∧ inTxn.pins.rd = .val .high ∧ inTxn.pins.dir = .val .out) := by decide

theorem witness_WriteDataWordStrobesTheWord :
    (Constructed selected ∧ Selected selected ∧ selected.pins.dir = .val .out) ∧
    (Constructed inTxn ∧ ¬ (Selected inTxn ∧ inTxn.pins.dir = .val .out)) ∧
    (selected.pins.cs = .val .low ∧ selected.pins.rs = .val .high ∧ selected.pins.rd = .val .high ∧
      selected.pins.dir = .val .out) := by decide

theorem witness_ReadDataWordSamplesWhileRdLow : (Constructed selected ∧ Selected selected) ∧
    (Constructed inTxn ∧ ¬ Selected inTxn) ∧
    (selected.pins.cs = .val .low ∧ selected.pins.rs = .val .high ∧ selected.pins.wr = .val .high) := by decide

theorem witness_WrPulseRepeatsTheStrobe :
    (Constructed loaded ∧ Selected loaded ∧ loaded.pins.dir = .val .out ∧ loaded.txnLoaded = true) ∧
    (Constructed selected ∧ ¬ (Selected selected ∧ selected.pins.dir = .val .out ∧ selected.txnLoaded = true)) ∧
    (loaded.pins.cs = .val .low ∧ loaded.pins.rs = .val .high ∧ loaded.pins.rd = .val .high ∧
      loaded.pins.dir = .val .out ∧ loaded.pins.dout = .val 0xF800) := by decide

theorem witness_WriteRegisterIsOneTransaction : (Constructed idle ∧ BusFree idle) ∧ (Constructed inTxn ∧ ¬ BusFree inTxn) := by
  decide

theorem witness_ReadRegisterIsOneTransaction : (Constructed answered ∧ BusFree answered) ∧
    (Constructed inputMode ∧ ¬ BusFree inputMode) := by decide

/-- The least and the greatest count. -/
theorem witness_BurstIsOneTransaction : (Constructed idle ∧ BusFree idle ∧ 1 ≤ (1 : Count).toNat ∧
    1 ≤ (0xFFFFFFFF : Count).toNat) ∧ (Constructed fresh ∧ ¬ BusFree fresh) := by decide

theorem witness_PrimitivesRefineWriteRegister : Constructed idle ∧ BusFree idle := by decide

theorem witness_BusCycleRowsProduceTheirCycle :
    (Constructed inTxn ∧ inTxn.txnOpen = true ∧ inTxn.pins.dir = .val .out ∧ inTxn.pins.cs = .val .low ∧
      inTxn.pins.rs = .val .high ∧ inTxn.pins.wr = .val .high ∧ inTxn.pins.rd = .val .high) ∧
    (Constructed selected ∧ Selected selected ∧ selected.pins.dir = .val .out ∧ selected.pins.cs = .val .low ∧
      selected.pins.wr = .val .high ∧ selected.pins.rd = .val .high) := by decide

/-- The first number that is no rotation, and the greatest. -/
theorem witness_RotationFromIdIsNotReduced : Constructed fresh ∧ 4 ≤ (4 : Word).toNat ∧ 4 ≤ (0xFFFF : Word).toNat := by
  decide

theorem witness_SetRotationWritesEntryMode : (idle.lifecycle = .initialised ∧ BusFree idle) ∧
    (4 ≤ (4 : Word).toNat ∧ 4 ≤ (0xFFFF : Word).toNat) ∧ ((3 : Word).toNat < 4 ∧ ¬ BusFree inTxn) ∧
    fresh.lifecycle ≠ .initialised := by decide

theorem witness_LogicalSizeFollowsRotation :
    (Constructed fresh ∧ (fresh.rot = .r0 ∨ fresh.rot = .r180)) ∧
    (Constructed (turned .r180) ∧ ((turned .r180).rot = .r0 ∨ (turned .r180).rot = .r180)) ∧
    (Constructed (turned .r90) ∧ ((turned .r90).rot = .r90 ∨ (turned .r90).rot = .r270)) ∧
    (Constructed (turned .r270) ∧ ((turned .r270).rot = .r90 ∨ (turned .r270).rot = .r270)) := by decide

theorem witness_MaxBottomRightFollowsRotation :
    (Constructed (turned .r180) ∧ ((turned .r180).rot = .r0 ∨ (turned .r180).rot = .r180)) ∧
    (Constructed (turned .r270) ∧ ((turned .r270).rot = .r90 ∨ (turned .r270).rot = .r270)) := by decide

/-- The far corner of the logical rectangle, under each rotation. -/
theorem witness_ToNativeOnTheScreen :
    (Constructed (turned .r0) ∧ (Point.ofWords 239 319).within (logicalSize (turned .r0).cfg (turned .r0).rot)) ∧
    (Constructed (turned .r90) ∧ (Point.ofWords 319 239).within (logicalSize (turned .r90).cfg (turned .r90).rot)) ∧
    (Constructed (turned .r180) ∧ (Point.ofWords 239 319).within (logicalSize (turned .r180).cfg (turned .r180).rot)) ∧
    (Constructed (turned .r270) ∧ (Point.ofWords 319 239).within (logicalSize (turned .r270).cfg (turned .r270).rot)) := by decide

/-- A size that is not the native one, at the edge of its range; the last but one is on the way back of the round trip,
outside the logical rectangle in force. -/
theorem witness_ToNativeForAnySize :
    Constructed (turned .r90) ∧ Point.mapped (turned .r90).cfg (turned .r90).rot (Point.ofWords 99 49) (Size.ofWords 50 100) ∧
    Point.mapped (turned .r270).cfg (turned .r270).rot (Point.ofWords 219 10) (Size.ofWords 320 240) ∧
    Point.mapped (turned .r270).cfg (turned .r270).rot (Point.ofWords 239 319) (Size.ofWords 320 240) ∧
    Point.mapped (turned .r180).cfg (turned .r180).rot (Point.ofWords 49 99) (Size.ofWords 50 100) ∧
    Point.mapped (turned .r0).cfg (turned .r0).rot (Point.ofWords 49 99) (Size.ofWords 50 100) := by decide

theorem witness_MapRectOrdersMappedCorners : Constructed (turned .r270) ∧
    cornersWithin (turned .r270).cfg (turned .r270).rot (Point.ofWords 319 239) (Point.ofWords 0 0) := by decide

/-- One past the edge; a size larger than the screen, and one smaller. -/
theorem witness_MapperOutsideStillCompletes :
    (Constructed idle ∧ ¬ Point.mapped idle.cfg idle.rot (Point.ofWords 500 500) (Size.ofWords 1000 1000)) ∧
    (Constructed (turned .r180) ∧ ¬ Point.mapped (turned .r180).cfg (turned .r180).rot (Point.ofWords 50 99) (Size.ofWords 50 100)) ∧
    (Constructed (turned .r270) ∧ ¬ Point.mapped (turned .r270).cfg (turned .r270).rot (Point.ofWords 240 319) (Size.ofWords 320 240)) ∧
    (Constructed (turned .r90) ∧ ¬ (Point.ofWords 0 240).within (logicalSize (turned .r90).cfg (turned .r90).rot)) ∧
    (Constructed idle ∧ ¬ (Point.ofWords 240 0).within (logicalSize idle.cfg idle.rot)) ∧
    (Constructed idle ∧ ¬ cornersWithin idle.cfg idle.rot (Point.ofWords 0 0) (Point.ofWords 239 320)) := by decide

theorem witness_ToNativeIsABijection : (⟨319, 239⟩ : Point).within (logicalSize tCfg .r90) ∧
    (⟨239, 319⟩ : Point).within (logicalSize tCfg .r180) ∧ (⟨239, 319⟩ : Point).within (nativeSize tCfg) ∧
    (⟨0, 0⟩ : Point).within (nativeSize tCfg) := by decide

theorem witness_ToNativeRoundTrip :
    (Constructed (turned .r90) ∧ (Point.ofWords 319 239).within (logicalSize (turned .r90).cfg (turned .r90).rot)) ∧
    (Constructed (turned .r180) ∧ (Point.ofWords 239 319).within (logicalSize (turned .r180).cfg (turned .r180).rot)) := by decide

theorem witness_ConstructTakesOwnership : State.reset.lifecycle = .unconstructed ∧ fresh.lifecycle ≠ .unconstructed ∧
    idle.lifecycle ≠ .unconstructed := by decide

theorem witness_InitializePerformsItsSteps : (Constructed fresh ∧ fresh.txnOpen = false) ∧
    (Constructed idle ∧ idle.txnOpen = false) ∧ (Constructed inTxn ∧ inTxn.txnOpen = true) := by decide

theorem witness_InitializeCountsItsAccesses : ∃ t, exec .initialise fresh = .next t :=
  ⟨_, initialise_next_iff.2 ⟨by decide, rfl, rfl⟩⟩

theorem witness_SetPointerWritesThePair : (Constructed idle ∧ BusFree idle) ∧ (Constructed inTxn ∧ ¬ BusFree inTxn) := by decide

/-- A one-pixel window at the far corner; out of order on each axis. -/
theorem witness_SetWindowWritesTheWindow :
    (Constructed idle ∧ BusFree idle ∧ (239 : Word).toNat ≤ (239 : Word).toNat ∧ (319 : Word).toNat ≤ (319 : Word).toNat) ∧
    (Constructed idle ∧ ((3 : Word).toNat < (5 : Word).toNat ∨ (9 : Word).toNat < (1 : Word).toNat)) ∧
    (Constructed idle ∧ ((3 : Word).toNat < (1 : Word).toNat ∨ (1 : Word).toNat < (9 : Word).toNat)) ∧
    (Constructed fresh ∧ ¬ BusFree fresh) := by decide

theorem witness_ResetWindowWritesTheFullExtent : (Constructed (turned .r90) ∧ BusFree (turned .r90)) ∧
    (Constructed fresh ∧ ¬ BusFree fresh) := by decide

theorem witness_DrawPixelWritesOnePixel :
    ((turned .r270).lifecycle = .initialised ∧ BusFree (turned .r270) ∧
      (Point.ofWords 319 239).within (logicalSize (turned .r270).cfg (turned .r270).rot)) ∧ ¬ BusFree inTxn := by decide

/-- A one-pixel rectangle and the full logical rectangle. -/
theorem witness_FillRectangleStreamsTheColour :
    (idle.lifecycle = .initialised ∧ BusFree idle ∧ (5 : Word).toNat ≤ (5 : Word).toNat ∧
      cornersWithin idle.cfg idle.rot (Point.ofWords 5 5) (Point.ofWords 5 5)) ∧
    ((turned .r90).lifecycle = .initialised ∧ BusFree (turned .r90) ∧ (0 : Word).toNat ≤ (319 : Word).toNat ∧
      (0 : Word).toNat ≤ (239 : Word).toNat ∧
      cornersWithin (turned .r90).cfg (turned .r90).rot (Point.ofWords 0 0) (Point.ofWords 319 239)) ∧
    (¬ BusFree inTxn ∧ (5 : Word).toNat ≤ (5 : Word).toNat) := by decide

/-- One past the edge. -/
theorem witness_DrawingOutsideStillCompletes :
    (idle.lifecycle = .initialised ∧ BusFree idle ∧ ¬ (Point.ofWords 240 0).within (logicalSize idle.cfg idle.rot)) ∧
    (idle.lifecycle = .initialised ∧ BusFree idle ∧ (0 : Word).toNat ≤ (239 : Word).toNat ∧
      (0 : Word).toNat ≤ (320 : Word).toNat ∧
      ¬ cornersWithin idle.cfg idle.rot (Point.ofWords 0 0) (Point.ofWords 239 320)) := by decide

/-- One axis each, by one. -/
theorem witness_InvalidWindowHasNoEffect : idle.lifecycle = .initialised ∧
    ((4 : Word).toNat < (5 : Word).toNat ∨ (9 : Word).toNat < (1 : Word).toNat) ∧
    ((5 : Word).toNat < (5 : Word).toNat ∨ (8 : Word).toNat < (9 : Word).toNat) := by decide

theorem witness_FillCountIsTheNextMultipleOfFour : 8 % 4 = 0 ∧ 2 * 3 ≤ 8 := by decide

/-- The fill of P2 ends `Ok`. -/
theorem witness_FillWritesCountWordsAndRestoresWindow :
    ∃ t, exec (.fillRectangle 1 1 2 3 0x07E0) idle = .next t ∧ t.result = .val (.ok .unit) := ⟨_, rfl, rfl⟩

theorem witness_EachItemHasItsWriters : (∃ t, exec (.setRotation 1) idle = .next t ∧ t.rot ≠ idle.rot) ∧
    (∃ t, exec .construct State.reset = .next t ∧ t.lifecycle ≠ State.reset.lifecycle) ∧
    (∃ t, exec .txnBegin fresh = .next t ∧ t.pins.cs ≠ fresh.pins.cs ∧ t.pins.rs ≠ fresh.pins.rs ∧
      t.pins.wr ≠ fresh.pins.wr ∧ t.pins.rd ≠ fresh.pins.rd) ∧
    (∃ t, exec (.datw 0xF800) selected = .next t ∧ t.pins.dout ≠ selected.pins.dout) ∧
    (∃ t, exec .backlightOn fresh = .next t ∧ t.pins.bl ≠ fresh.pins.bl) ∧
    (∃ t, exec .setInputMode idle = .next t ∧ t.pins.dir ≠ idle.pins.dir) ∧
    (∃ t, exec .txnBegin idle = .next t ∧ t.txnOpen = true) ∧ (∃ t, exec .txnEnd inTxn = .next t ∧ t.txnOpen = false) :=
  ⟨⟨_, rfl, by decide⟩, ⟨_, rfl, by decide⟩, ⟨_, rfl, by decide⟩, ⟨_, rfl, by decide⟩, ⟨_, rfl, by decide⟩,
    ⟨_, rfl, by decide⟩, ⟨_, rfl, rfl⟩, ⟨_, rfl, rfl⟩⟩

theorem witness_QueriesTouchNothingButResult : (∃ t, exec .logicalSize idle = .next t) ∧
    (∃ t, exec .maxBottomRight idle = .next t) ∧ (∃ t, exec (.rotationFromId 4) idle = .next t) ∧
    (∃ t, exec (.toNative 240 0 240 320) idle = .next t) ∧ (∃ t, exec (.mapRect 0 0 240 320) idle = .next t) :=
  ⟨⟨_, rfl⟩, ⟨_, rfl⟩, ⟨_, rfl⟩, ⟨_, rfl⟩, ⟨_, rfl⟩⟩

theorem witness_ErrorsAreTwoAndPrecise :
    (∃ t, exec (.fillRectangle 5 1 4 9 0) idle = .next t ∧ t.result = .val (.err .invalidWindow)) ∧
    (∃ t, exec (.setRotation 4) idle = .next t ∧ t.result = .val (.err .invalidRotationId)) ∧
    (∃ t, exec (.rotationFromId 4) idle = .next t ∧ t.result = .val (.err .invalidRotationId)) :=
  ⟨⟨_, rfl, rfl⟩, ⟨_, rfl, rfl⟩, ⟨_, rfl, rfl⟩⟩

theorem witness_SampledValuesSteerNothing : (∃ t, exec .sampleBus inputMode = .next t) ∧
    (∃ t, exec .readDataWord selected = .next t) ∧ (∃ t, exec (.readRegister 0) idle = .next t) ∧
    (∃ t, exec .initialise fresh = .next t) ∧ Refuses (exec .sampleBus idle) :=
  ⟨⟨_, rfl⟩, ⟨_, rfl⟩, ⟨_, rfl⟩, ⟨_, initialise_next_iff.2 ⟨by decide, rfl, rfl⟩⟩, ⟨_, rfl⟩⟩

/-- One command of each row of R253 that ends `Ok`. -/
theorem witness_MinimumDurations : (∃ t, exec .txnBegin idle = .next t ∧ t.result = .val (.ok .unit)) ∧
    (∃ t, exec (.setRotation 1) idle = .next t ∧ t.result = .val (.ok .unit)) ∧
    (∃ t, exec (.writeRegisterBurst 0x22 0 4) idle = .next t ∧ t.result = .val (.ok .unit)) ∧
    (∃ t, exec (.setPointer 0 0) idle = .next t ∧ t.result = .val (.ok .unit)) ∧
    (∃ t, exec .resetWindow idle = .next t ∧ t.result = .val (.ok .unit)) ∧
    (∃ t, exec (.drawPixel 0 0 0) idle = .next t ∧ t.result = .val (.ok .unit)) ∧
    (∃ t, exec (.fillRectangle 1 1 2 3 0) idle = .next t ∧ t.result = .val (.ok .unit)) ∧
    (∃ t, exec .initialise fresh = .next t ∧ t.result = .val (.ok .unit)) :=
  ⟨⟨_, rfl, rfl⟩, ⟨_, rfl, rfl⟩, ⟨_, rfl, rfl⟩, ⟨_, rfl, rfl⟩, ⟨_, rfl, rfl⟩, ⟨_, rfl, rfl⟩, ⟨_, rfl, rfl⟩,
    ⟨_, initialise_next_iff.2 ⟨by decide, rfl, rfl⟩, rfl⟩⟩

/-- Outputs, the backlight on, and the full window just written: the levels and the trace agree. -/
def running : State :=
  { idle with
    pins := { idle.pins with dout := .val (fullWindowLast tCfg) }
    trace := [.pin .bl .high, .dir .out] ++ writesTrace (fullWindowWrites tCfg) }

theorem running_disciplined : Disciplined running where
  replay := by decide
  legal := by
    refine (legalThrough_append _ _ _).2 ⟨by simp [LegalThrough, Legal, Pins.reset], ?_⟩
    exact (startable_writesTrace (by simp [Startable, Legal, Pins.reset]) _).1
  opened := by simp [running, idle, State.reset]
  closed := fun _ => by decide
  selected := by simp [running, idle, State.reset]
  loaded := by simp [running, idle, State.reset]

/-- The state after `running` opened a transaction and selected a register. -/
def runningTxn : State :=
  { running with
    pins := { running.pins with cs := .val .low, dout := .val 0x22 }
    trace := running.trace ++ [.pin .rs .high, .pin .rd .high, .pin .wr .high, .pin .cs .low, .delayUs 1,
      .pin .rs .low, .drive 0x22, .pin .wr .low, .delayUs 1, .pin .wr .high, .pin .rs .high]
    txnOpen := true, txnSelected := true }

theorem runningTxn_disciplined : Disciplined runningTxn where
  replay := by decide
  legal := by
    refine (legalThrough_append _ _ _).2 ⟨running_disciplined.legal, ?_⟩
    rw [← running_disciplined.replay]
    simp [LegalThrough, Legal, running, idle]
  opened := fun _ => by decide
  closed := by simp [runningTxn]
  selected := fun _ => rfl
  loaded := by simp [runningTxn, running, idle, State.reset]

theorem witness_CommandsEndDeselected : Disciplined running ∧ (∃ t, exec (.drawPixel 0 0 0xF800) running = .next t) ∧
    running.txnOpen = false ∧ Instr.drawPixel 0 0 0xF800 ≠ .txnBegin :=
  ⟨running_disciplined, ⟨_, rfl⟩, rfl, by decide⟩

/-- Steps that use the bus: from between commands, and from inside a transaction. -/
theorem witness_StepKeepsBusDiscipline :
    (Disciplined { running with requests := [encode (.readRegister 0)] } ∧
      ∃ t, step { running with requests := [encode (.readRegister 0)] } = .next t) ∧
    (Disciplined { runningTxn with requests := [encode (.writeDataWord 0xF800)] } ∧
      ∃ t, step { runningTxn with requests := [encode (.writeDataWord 0xF800)] } = .next t) :=
  ⟨⟨⟨running_disciplined.replay, running_disciplined.legal, running_disciplined.opened, running_disciplined.closed,
      running_disciplined.selected, running_disciplined.loaded⟩, ⟨_, rfl⟩⟩,
    ⟨⟨runningTxn_disciplined.replay, runningTxn_disciplined.legal, runningTxn_disciplined.opened,
      runningTxn_disciplined.closed, runningTxn_disciplined.selected, runningTxn_disciplined.loaded⟩, ⟨_, rfl⟩⟩⟩

theorem tCfg_apart : WindowApart tCfg := by simp [WindowApart, windowRegs, tCfg, Config.default]

theorem running_full : WindowFull running := by decide

/-- A `PUBLIC` host about to draw. -/
def publicRun : State := { publicHost running with requests := [encode (.setRotation 3)] }

theorem publicRun_idle : PublicIdle publicRun where
  level := rfl
  noTxn := rfl
  idle := fun _ => by decide
  rotation := by simp [publicRun, publicHost, running, idle]

theorem witness_PublicStepKeepsIdle : PublicIdle publicRun ∧ (publicRun.lifecycle = .initialised) ∧
    ∃ t, step publicRun = .next t := ⟨publicRun_idle, rfl, ⟨_, rfl⟩⟩

theorem witness_PublicStepKeepsWindowFull : Disciplined publicRun ∧ PublicIdle publicRun ∧ WindowApart publicRun.cfg ∧
    WindowFull publicRun ∧ ∃ t, step publicRun = .next t ∧ t.lifecycle = .initialised :=
  ⟨⟨running_disciplined.replay, running_disciplined.legal, running_disciplined.opened, running_disciplined.closed,
      running_disciplined.selected, running_disciplined.loaded⟩, publicRun_idle, tCfg_apart, running_full,
    ⟨_, rfl, rfl⟩⟩

end Sys2Proof.Tests
end

section
/-! PROOF. The state family (spec/10_state.md): what a run of bus transactions can change, what a PUBLIC command can do, and
from these the writers of every item, the idle levels and the window as last written. -/

namespace Sys2Proof.Proofs

open Sys2Proof.Machine Sys2Proof.Safety Sys2Proof.Laws

/-! ### What a run of transactions can change -/

/-- What holds between two states with nothing but transactions and waits between them: only the lines of a transaction, the
trace and the transaction's bookkeeping move (R126, R140, R146 to R148). -/
structure BusRun (s t : State) : Prop where
  rot       : t.rot = s.rot
  lifecycle : t.lifecycle = s.lifecycle
  cfg       : t.cfg = s.cfg
  requests  : t.requests = s.requests
  closed    : s.txnOpen = false → t.txnOpen = false
  events    : ∃ es, t.trace = s.trace ++ es ∧ t.pins = s.pins.run es
  bl        : t.pins.bl = s.pins.bl
  output    : s.pins.dir = .val .out → t.pins.dir = .val .out
  idle      : Idle s.pins → Idle t.pins

theorem BusRun.trans {s t u : State} (h : BusRun s t) (k : BusRun t u) : BusRun s u where
  rot := k.rot.trans h.rot
  lifecycle := k.lifecycle.trans h.lifecycle
  cfg := k.cfg.trans h.cfg
  requests := k.requests.trans h.requests
  closed := k.closed ∘ h.closed
  events := by
    obtain ⟨es, het, hep⟩ := h.events
    obtain ⟨fs, hft, hfp⟩ := k.events
    exact ⟨es ++ fs, by rw [hft, het, List.append_assoc], by rw [hfp, hep, run_append]⟩
  bl := k.bl.trans h.bl
  output := k.output ∘ h.output
  idle := k.idle ∘ h.idle

/-- Drawing free values is no bus activity. -/
theorem BusRun.draws (s : State) (k : Nat) : BusRun s { s with draws := k } where
  rot := rfl
  lifecycle := rfl
  cfg := rfl
  requests := rfl
  closed := id
  events := ⟨[], (List.append_nil _).symm, rfl⟩
  bl := rfl
  output := id
  idle := id

theorem BusRun.refl (s : State) : BusRun s s := .draws s s.draws

theorem BusRun.delayMs (n : Word) (s : State) : BusRun s (delayMs n s) where
  rot := rfl
  lifecycle := rfl
  cfg := rfl
  requests := rfl
  closed := id
  events := ⟨[.delayMs n], rfl, rfl⟩
  bl := rfl
  output := id
  idle := id

/-- One transaction that leaves the idle levels and its last word. -/
theorem BusRun.transaction {s : State} {d : Word} {es : List Event} {r : Latch Result}
    (hes : s.pins.run es = idleWith s.pins d) :
    BusRun s { s with pins := idleWith s.pins d, trace := s.trace ++ es, result := r,
                      txnOpen := false, txnSelected := false, txnLoaded := false } where
  rot := rfl
  lifecycle := rfl
  cfg := rfl
  requests := rfl
  closed := fun _ => rfl
  events := ⟨es, rfl, hes.symm⟩
  bl := rfl
  output := id
  idle := fun ⟨_, _, _, _, hdir, hbl⟩ => ⟨rfl, rfl, rfl, rfl, hdir, hbl⟩

theorem BusRun.afterBus {s : State} {d : Word} {es : List Event} (hes : s.pins.run es = idleWith s.pins d) :
    BusRun s (afterBus s d es) := .transaction hes

theorem BusRun.writeRegister (i d : Word) (s : State) : BusRun s (writeRegister i d s).2 := by
  rw [writeRegister_eq]
  exact .transaction (run_writeTrace s.pins i d)

theorem BusRun.writeRegisterBurst (i d : Word) (n : Nat) (s : State) : BusRun s (writeRegisterBurst i d n s).2 := by
  rw [writeRegisterBurst_eq]
  exact .transaction (run_burstTrace s.pins i d n)

/-- A read ends with the lines outputs, whatever their mode before (R143). -/
theorem BusRun.readRegister (i : Word) (s : State) : BusRun s (readRegister i s).2 := by
  obtain ⟨v, hv⟩ := readRegister_spec i s
  rw [hv]
  constructor
  case events => exact ⟨readTrace i v, rfl, (run_readTrace s.pins i v).symm⟩
  case idle => exact fun ⟨_, _, _, _, _, hbl⟩ => ⟨rfl, rfl, rfl, rfl, rfl, hbl⟩
  case closed | output => exact fun _ => rfl
  all_goals rfl

theorem BusRun.perform (s : State) (a : Access) : BusRun s (perform s a) := by
  cases a with
  | write i d => exact .writeRegister i d s
  | read i => exact .readRegister i s
  | waitMs n => exact .delayMs n s

theorem BusRun.performAll (as : List Access) (s : State) : BusRun s (performAll as s) := by
  induction as generalizing s with
  | nil => exact .refl s
  | cons a as ih => exact (BusRun.perform s a).trans (ih _)

theorem BusRun.setPointer (x y : Word) (s : State) : BusRun s (setPointer x y s) := .performAll _ s

theorem BusRun.setWindow (xs ys xe ye : Word) (s : State) : BusRun s (setWindow xs ys xe ye s) := .performAll _ s

theorem BusRun.resetWindow (s : State) : BusRun s (resetWindow s) := .setWindow _ _ _ _ s

/-- After `ROT` is stored, setting a rotation is one register write (R163). -/
theorem BusRun.applyRotation (r : Rotation) (s : State) : BusRun { s with rot := r } (applyRotation r s) :=
  .writeRegister _ _ { s with rot := r }

theorem BusRun.fillWindow (tl br : Point) (s : State) : BusRun s (fillWindow tl br s) := by
  obtain ⟨xs, ys, xe, ye, px, py, k, hfill⟩ := fillWindow_spec tl br s
  have hperform :
      Machine.performAll (windowAccesses s.cfg xs ys xe ye px py) { s with draws := k } = Machine.fillWindow tl br s := by
    rw [hfill, performAll_window]
  rw [← hperform]
  exact (BusRun.draws s k).trans (.performAll _ _)

/-- A pixel is three register writes, the first two with the mapped point (R187). -/
theorem drawPixel_spec (p : Point) (colour : Word) (s : State) :
    ∃ x y k, drawPixel p colour s =
      performAll (writeAccesses [(s.cfg.reg.ramAddrH, x), (s.cfg.reg.ramAddrV, y), (s.cfg.reg.gram, colour)])
        { s with draws := k } := by
  obtain ⟨x, y, k, hq⟩ := mapPoint_spec p (nativeSize s.cfg) s
  refine ⟨x, y, k, ?_⟩
  have hwrite : drawPixel p colour s = (writeRegister s.cfg.reg.gram colour (setPointer x y { s with draws := k })).2 := by
    simp only [drawPixel, hq]
  rw [hwrite, setPointer]
  simp only [pointerAccesses, writeAccesses, List.map_cons, List.map_nil, performAll_cons, performAll_nil, perform]

theorem BusRun.drawPixel (p : Point) (colour : Word) (s : State) : BusRun s (drawPixel p colour s) := by
  obtain ⟨x, y, k, hdraw⟩ := drawPixel_spec p colour s
  rw [hdraw]
  exact (BusRun.draws s k).trans (.performAll _ _)

/-- The part of a fill before its last window: the window of the rectangle and the burst (R188). -/
def fillBody (tl br : Point) (colour : Word) (s : State) : State :=
  let u := fillWindow tl br s
  (writeRegisterBurst u.cfg.reg.gram colour (fillCount u.cfg (br.x - tl.x + 1) (br.y - tl.y + 1)) u).2

theorem fillRectangle_eq (tl br : Point) (colour : Word) (s : State) :
    fillRectangle tl br colour s = resetWindow (fillBody tl br colour s) := rfl

theorem BusRun.fillBody (tl br : Point) (colour : Word) (s : State) : BusRun s (fillBody tl br colour s) :=
  (BusRun.fillWindow tl br s).trans (.writeRegisterBurst _ _ _ _)

theorem BusRun.fillRectangle (tl br : Point) (colour : Word) (s : State) : BusRun s (fillRectangle tl br colour s) :=
  (BusRun.fillBody tl br colour s).trans (.resetWindow _)

/-! ### The parts of INITIALIZE (R183) -/

/-- Steps 1 and 2: the backlight on and the lines outputs. -/
def panelLit (s : State) : State := setOutputMode (backlightOn s)

/-- Steps 1 to 29: up to the gamma writes. -/
def panelPowered (s : State) : State := performAll (initHead (panelLit s).cfg) (panelLit s)

/-- Steps 1 to 30: the rotation set. -/
def panelTurned (s : State) : State := applyRotation .r0 (panelPowered s)

/-- The register writes after the window's own: the pointer, the tail and the display control (steps 32 to 34). -/
def tailWrites (c : Config) : List (Word × Word) :=
  [(c.reg.ramAddrH, 0), (c.reg.ramAddrV, 0)] ++ (c.initTail ++ [(c.reg.displayControl1, c.fixed.dc1On)])

theorem BusRun.panelPowered (s : State) : BusRun (panelLit s) (panelPowered s) := .performAll _ _

theorem panelPowered_cfg (s : State) : (panelPowered s).cfg = s.cfg := (BusRun.panelPowered s).cfg

theorem panelTurned_cfg (s : State) : (panelTurned s).cfg = s.cfg :=
  (BusRun.applyRotation .r0 (panelPowered s)).cfg.trans (panelPowered_cfg s)

/-- `INITIALIZE` after the rotation: the full window, then the writes of the tail. -/
theorem initialisePanel_eq (s : State) :
    initialisePanel s = performAll (writeAccesses (tailWrites s.cfg)) (resetWindow (panelTurned s)) := by
  have hcfg : (setPointer 0 0 (resetWindow (panelTurned s))).cfg = s.cfg :=
    (BusRun.setPointer 0 0 _).cfg.trans ((BusRun.resetWindow _).cfg.trans (panelTurned_cfg s))
  have hreset : (resetWindow (panelTurned s)).cfg = s.cfg := (BusRun.resetWindow _).cfg.trans (panelTurned_cfg s)
  have htail : initialisePanel s =
      performAll (initTailAccesses (setPointer 0 0 (resetWindow (panelTurned s))).cfg)
        (setPointer 0 0 (resetWindow (panelTurned s))) := rfl
  rw [htail, hcfg, setPointer, hreset, ← performAll_append]
  simp [tailWrites, initTailAccesses, pointerAccesses, writeAccesses]

theorem BusRun.initialiseTail (s : State) : BusRun (panelTurned s) (initialisePanel s) := by
  rw [initialisePanel_eq]
  exact (BusRun.resetWindow _).trans (.performAll _ _)

/-- From the lit panel on, `INITIALIZE` is a run of transactions, but for the rotation it sets. -/
theorem initialise_busRun (s : State) : BusRun { panelLit s with rot := .r0 } (initialisePanel s) := by
  have hrot : BusRun { panelLit s with rot := .r0 } { panelPowered s with rot := .r0 } :=
    let h := BusRun.panelPowered s
    { rot := rfl, lifecycle := h.lifecycle, cfg := h.cfg, requests := h.requests, closed := h.closed, events := h.events
      bl := h.bl, output := h.output, idle := h.idle }
  exact hrot.trans ((BusRun.applyRotation .r0 (panelPowered s)).trans (.initialiseTail s))

/-! ### One step, and what a PUBLIC command can do -/

/-- With a word on the port that decodes, and is admitted at the host's level, a step is that instruction (R22, R90, R99). -/
theorem step_of_decode {s : State} {e : Encoded} {rest : List Encoded} {i : Instr} (hreq : s.requests = e :: rest)
    (hdec : decode e = .ok i) (hlevel : i.level = .pub ∨ s.cfg.hostLevel = .internal) :
    step s = exec i { s with requests := rest } := by
  have hnext : nextRequest s = some (e, { s with requests := rest }) := by simp only [nextRequest, hreq]
  simp only [step, stepRequest, hnext, runRequest, hdec]
  exact require_of hlevel

/-- A step that ends is waiting, or runs an admitted instruction. -/
theorem step_next_cases {s t : State} (h : step s = .next t) :
    t = s ∨ ∃ rest i, (i.level = .pub ∨ s.cfg.hostLevel = .internal) ∧ exec i { s with requests := rest } = .next t := by
  rcases hreq : s.requests with _ | ⟨e, rest⟩
  · have hnext : nextRequest s = none := by simp only [nextRequest, hreq]
    simp only [step, stepRequest, hnext, Host.Outcome.next.injEq] at h
    exact .inl h.symm
  · have hnext : nextRequest s = some (e, { s with requests := rest }) := by simp only [nextRequest, hreq]
    simp only [step, stepRequest, hnext, runRequest] at h
    cases hdec : decode e with
    | error why => simp [hdec] at h
    | ok i =>
      simp only [hdec, admitLevel, require_next_iff] at h
      exact .inr ⟨rest, i, h⟩

/-- Everything a `PUBLIC` command that ends can do (R92, R161 to R165, R181 to R188). -/
inductive PublicEffect (s : State) : State → Prop
  /-- A query, or an error: nothing but `RESULT`. -/
  | report (r : Latch Result) : PublicEffect s { s with result := r }
  | construct (r : Latch Result) : PublicEffect s { s with rot := .r0, lifecycle := .constructed, result := r }
  | initialise (u : State) (hu : u = initialisePanel s) (r : Latch Result) :
      PublicEffect s { u with lifecycle := .initialised, result := r }
  | setRotation (q : Rotation) (r : Latch Result) (hl : s.lifecycle = .initialised) :
      PublicEffect s { applyRotation q s with result := r }
  | drawPixel (p : Point) (colour : Word) (r : Latch Result) (hl : s.lifecycle = .initialised) :
      PublicEffect s { drawPixel p colour s with result := r }
  | fillRectangle (tl br : Point) (colour : Word) (r : Latch Result) (hl : s.lifecycle = .initialised) :
      PublicEffect s { fillRectangle tl br colour s with result := r }

theorem publicEffect_of_exec {s t : State} {i : Instr} (hlevel : i.level = .pub) (h : exec i s = .next t) :
    PublicEffect s t := by
  cases i with
  | setRotation a =>
    obtain ⟨hl, ⟨-, rfl⟩ | ⟨q, -, -, rfl⟩⟩ := setRotation_next_iff.1 h
    · exact .report _
    · exact .setRotation q _ hl
  | logicalSize =>
    obtain ⟨-, rfl⟩ := logicalSize_next_iff.1 h
    exact .report _
  | maxBottomRight =>
    obtain ⟨-, rfl⟩ := maxBottomRight_next_iff.1 h
    exact .report _
  | rotationFromId a =>
    obtain ⟨-, ⟨-, rfl⟩ | ⟨q, -, rfl⟩⟩ := rotationFromId_next_iff.1 h <;> exact .report _
  | construct =>
    obtain ⟨-, rfl⟩ := construct_next_iff.1 h
    exact .construct _
  | initialise =>
    obtain ⟨-, -, rfl⟩ := initialise_next_iff.1 h
    exact .initialise _ rfl _
  | drawPixel x y colour =>
    obtain ⟨hl, -, rfl⟩ := drawPixel_next_iff.1 h
    exact .drawPixel _ _ _ hl
  | fillRectangle a b c d colour =>
    obtain ⟨hl, ⟨-, rfl⟩ | ⟨-, -, -, rfl⟩⟩ := fillRectangle_next_iff.1 h
    · exact .report _
    · exact .fillRectangle _ _ _ _ hl
  | _ => cases hlevel

/-- A `PUBLIC` host's step is waiting, or the effect of a `PUBLIC` command (R99). -/
theorem publicStep_cases {s t : State} (hpub : s.cfg.hostLevel = .pub) (h : step s = .next t) :
    t = s ∨ ∃ rest, PublicEffect { s with requests := rest } t := by
  obtain rfl | ⟨rest, i, hlevel, hexec⟩ := step_next_cases h
  · exact .inl rfl
  · have hi : i.level = .pub := hlevel.resolve_right (by simp [hpub])
    exact .inr ⟨rest, publicEffect_of_exec hi hexec⟩

/-! ### The idle levels between commands (R39) -/

/-- The words the host has still to issue are no part of the idle invariant. -/
theorem publicIdle_withRequests {s : State} (h : PublicIdle s) (rest : List Encoded) :
    PublicIdle { s with requests := rest } := ⟨h.level, h.noTxn, h.idle, h.rotation⟩

/-- A run of transactions keeps the idle invariant of an initialised machine, whatever rotation and result it leaves. -/
theorem publicIdle_of_busRun {s u : State} {q : Rotation} {r : Latch Result} (h : PublicIdle s)
    (hl : s.lifecycle = .initialised) (hrun : BusRun { s with rot := q } u) : PublicIdle { u with result := r } where
  level := (congrArg Config.hostLevel hrun.cfg).trans h.level
  noTxn := hrun.closed h.noTxn
  idle := fun _ => hrun.idle (h.idle hl)
  rotation := fun hn => absurd (hrun.lifecycle.trans hl) hn

/-- Setting the rotation is a transaction, so from the lit panel on the lines end idle (R183 step 30). -/
theorem idle_panelTurned (s : State) : Idle (panelTurned s).pins := by
  have hrun := BusRun.panelPowered s
  have hdir : (panelPowered s).pins.dir = .val .out := hrun.output rfl
  have hbl : (panelPowered s).pins.bl = .val .high := hrun.bl
  rw [panelTurned, applyRotation_eq]
  exact ⟨rfl, rfl, rfl, rfl, hdir, hbl⟩

theorem publicIdle_initialise {s u : State} {r : Latch Result} (h : PublicIdle s) (hu : u = initialisePanel s) :
    PublicIdle { u with lifecycle := .initialised, result := r } := by
  have hrun : BusRun { panelLit s with rot := .r0 } u := hu ▸ initialise_busRun s
  have htail : BusRun (panelTurned s) u := hu ▸ BusRun.initialiseTail s
  exact
    { level := (congrArg Config.hostLevel hrun.cfg).trans h.level
      noTxn := hrun.closed h.noTxn
      idle := fun _ => htail.idle (idle_panelTurned s)
      rotation := fun hn => absurd rfl hn }

theorem PublicEffect.publicIdle {s t : State} (heff : PublicEffect s t) (h : PublicIdle s) : PublicIdle t := by
  cases heff with
  | report r => exact ⟨h.level, h.noTxn, h.idle, h.rotation⟩
  | construct r => exact ⟨h.level, h.noTxn, nofun, fun _ => rfl⟩
  | initialise u hu r => exact publicIdle_initialise h hu
  | setRotation q r hl => exact publicIdle_of_busRun h hl (.applyRotation q s)
  | drawPixel p colour r hl => exact publicIdle_of_busRun h hl (.drawPixel p colour s)
  | fillRectangle tl br colour r hl => exact publicIdle_of_busRun h hl (.fillRectangle tl br colour s)

/-- Settles O57: waiting changes nothing, and each effect of a PUBLIC command keeps the idle invariant. -/
theorem publicStepKeepsIdle : Obligations.PublicStepKeepsIdle := by
  intro s t h hstep
  obtain rfl | ⟨rest, heff⟩ := publicStep_cases h.level hstep
  · exact h
  · exact heff.publicIdle (publicIdle_withRequests h rest)

/-! ### The window as last written (R39, R193) -/

/-- The lines are outputs and hold what the trace made them: the register writes of a transaction can be read off. -/
structure Driving (s : State) : Prop where
  replay : s.pins = Pins.reset.run s.trace
  output : s.pins.dir = .val .out

theorem Driving.of_busRun {s t : State} (h : Driving s) (hrun : BusRun s t) : Driving t where
  replay := by
    obtain ⟨es, htrace, hpins⟩ := hrun.events
    rw [hpins, htrace, run_append, ← h.replay]
  output := hrun.output h.output

theorem performAll_writes_trace (ws : List (Word × Word)) (s : State) :
    (performAll (writeAccesses ws) s).trace = s.trace ++ writesTrace ws := by
  induction ws using List.reverseRecOn with
  | nil => simp [writesTrace]
  | append_singleton ws w _ => rw [performAll_writes]

/-- The register writes of a list of writes are that list (R37). -/
theorem Driving.registerWrites_performAll {s : State} (h : Driving s) (ws : List (Word × Word)) :
    registerWrites (performAll (writeAccesses ws) s).trace = registerWrites s.trace ++ ws := by
  rw [performAll_writes_trace, registerWrites_append, pairWrites_writesTrace]
  rw [← h.replay, h.output]

/-- Writes to other registers leave the window as last written. -/
theorem windowFull_performAll {s : State} (h : WindowFull s) (hs : Driving s) {ws : List (Word × Word)}
    (hws : ∀ w ∈ ws, w.1 ∉ windowRegs s.cfg) : WindowFull (performAll (writeAccesses ws) s) := by
  have hother : ∀ i ∈ windowRegs s.cfg, lastWritten i ws = none := fun i hi =>
    lastWritten_eq_none fun w hw heq => hws w hw (heq ▸ hi)
  simp only [windowRegs, List.forall_mem_cons] at hother
  obtain ⟨hxs, hxe, hys, hye, -⟩ := hother
  simpa only [WindowFull, (BusRun.performAll _ s).cfg, hs.registerWrites_performAll, lastWritten_append, hxs, hxe, hys, hye]
    using h

/-- The writes of the full window leave its four words, the pointer's registers being others. -/
theorem lastWritten_fullWindowWrites {c : Config} (h : WindowApart c) :
    lastWritten c.reg.hStart (fullWindowWrites c) = some 0 ∧ lastWritten c.reg.hEnd (fullWindowWrites c) = some 239 ∧
    lastWritten c.reg.vStart (fullWindowWrites c) = some 0 ∧ lastWritten c.reg.vEnd (fullWindowWrites c) = some 319 := by
  obtain ⟨hnodup, hother, -⟩ := h
  have hpointer : ∀ i ∈ windowRegs c,
      lastWritten i (if c.windowWritesPointer then [(c.reg.ramAddrH, (0 : Word)), (c.reg.ramAddrV, 0)] else []) = none := by
    intro i hi
    obtain ⟨-, hH, hV, -⟩ := hother i hi
    split <;> simp [lastWritten, hH.symm, hV.symm]
  simp only [windowRegs, List.forall_mem_cons] at hpointer
  simp only [windowRegs, List.nodup_cons, List.mem_cons, not_or] at hnodup
  obtain ⟨⟨xs_xe, xs_ys, xs_ye, -⟩, ⟨xe_ys, xe_ye, -⟩, ⟨ys_ye, -⟩, -⟩ := hnodup
  simp only [fullWindowWrites, windowWrites, lastWritten_append, hpointer]
  simp [lastWritten, Ne.symm xs_xe, Ne.symm xs_ys, Ne.symm xs_ye, Ne.symm xe_ys, Ne.symm xe_ye, Ne.symm ys_ye]

/-- `RESET_WINDOW` writes the full native extent (R185). -/
theorem windowFull_resetWindow {s : State} (hs : Driving s) (hc : WindowApart s.cfg) : WindowFull (resetWindow s) := by
  have hreset : resetWindow s = performAll (writeAccesses (fullWindowWrites s.cfg)) s := by
    rw [resetWindow_eq, fullWindowWrites, ← windowAccesses_eq, performAll_window]; rfl
  obtain ⟨hxs, hxe, hys, hye⟩ := lastWritten_fullWindowWrites hc
  simp only [WindowFull, hreset, (BusRun.performAll _ s).cfg, hs.registerWrites_performAll, lastWritten_append, hxs, hxe,
    hys, hye, and_self]

/-- The writes of the tail of `INITIALIZE` go to no window register. -/
theorem tailWrites_apart {c : Config} (h : WindowApart c) : ∀ w ∈ tailWrites c, w.1 ∉ windowRegs c := by
  obtain ⟨-, hother, htail⟩ := h
  intro w hw hmem
  simp only [tailWrites, List.mem_append, List.mem_cons, List.not_mem_nil, or_false] at hw
  obtain ⟨-, hH, hV, -, hD⟩ := hother w.1 hmem
  rcases hw with (rfl | rfl) | hw | rfl
  · exact hH rfl
  · exact hV rfl
  · exact htail w hw hmem
  · exact hD rfl

/-- From the rotation on, `INITIALIZE` drives the lines and has logged every event it made. -/
theorem driving_panelTurned {s : State} (h : s.pins = Pins.reset.run s.trace) : Driving (panelTurned s) := by
  have hlit : Driving (panelLit s) :=
    { replay := by
        rw [panelLit, setOutputMode, backlightOn, emit_emit, emit_pins, emit_trace, run_append _ s.trace, ← h]
      output := rfl }
  have hpow : Driving (panelPowered s) := hlit.of_busRun (.panelPowered s)
  have hrot : Driving { panelPowered s with rot := .r0 } := ⟨hpow.replay, hpow.output⟩
  exact hrot.of_busRun (.applyRotation .r0 (panelPowered s))

theorem windowFull_initialisePanel {s : State} (h : s.pins = Pins.reset.run s.trace) (hc : WindowApart s.cfg) :
    WindowFull (initialisePanel s) := by
  have hdrive := driving_panelTurned h
  have hcfg := panelTurned_cfg s
  have hreset : (resetWindow (panelTurned s)).cfg = s.cfg := (BusRun.resetWindow _).cfg.trans hcfg
  rw [initialisePanel_eq]
  refine windowFull_performAll (windowFull_resetWindow hdrive ?_) (hdrive.of_busRun (.resetWindow _)) ?_
  · rw [hcfg]; exact hc
  · rw [hreset]; exact tailWrites_apart hc

/-- The entry-mode register is no window register (R163). -/
theorem windowFull_applyRotation {s : State} (h : WindowFull s) (hs : Driving s) (hc : WindowApart s.cfg) (q : Rotation) :
    WindowFull (applyRotation q s) := by
  have hrot : Driving { s with rot := q } := ⟨hs.replay, hs.output⟩
  refine windowFull_performAll (ws := [(s.cfg.reg.entryMode, entryModeWord s.cfg.em q)]) (s := { s with rot := q }) h hrot ?_
  intro w hw hmem
  obtain ⟨hentry, -⟩ := hc.2.1 w.1 hmem
  exact hentry (by rw [List.mem_singleton.1 hw])

/-- The pointer's registers and GRAM are no window registers (R187). -/
theorem windowFull_drawPixel {s : State} (h : WindowFull s) (hs : Driving s) (hc : WindowApart s.cfg) (p : Point)
    (colour : Word) : WindowFull (drawPixel p colour s) := by
  obtain ⟨x, y, k, hdraw⟩ := drawPixel_spec p colour s
  rw [hdraw]
  refine windowFull_performAll (s := { s with draws := k }) h (hs.of_busRun (.draws s k)) ?_
  intro w hw hmem
  obtain ⟨-, hH, hV, hgram, -⟩ := hc.2.1 w.1 hmem
  simp only [List.mem_cons, List.not_mem_nil, or_false] at hw
  rcases hw with rfl | rfl | rfl
  · exact hH rfl
  · exact hV rfl
  · exact hgram rfl

/-- A fill ends with the full window, whatever it wrote before (R188). -/
theorem windowFull_fillRectangle {s : State} (hs : Driving s) (hc : WindowApart s.cfg) (tl br : Point) (colour : Word) :
    WindowFull (fillRectangle tl br colour s) := by
  have hbody := BusRun.fillBody tl br colour s
  rw [fillRectangle_eq]
  refine windowFull_resetWindow (hs.of_busRun hbody) ?_
  rw [hbody.cfg]; exact hc

/-- The phase and the result say nothing of the window. -/
theorem windowFull_ended {u : State} {l : Lifecycle} {r : Latch Result} (h : WindowFull u) :
    WindowFull { u with lifecycle := l, result := r } := h

theorem PublicEffect.windowFull {s t : State} (heff : PublicEffect s t) (hreplay : s.pins = Pins.reset.run s.trace)
    (hidle : PublicIdle s) (hc : WindowApart s.cfg) (hw : s.lifecycle = .initialised → WindowFull s) :
    t.lifecycle = .initialised → WindowFull t := by
  have hdrive (hl : s.lifecycle = .initialised) : Driving s := by
    obtain ⟨-, -, -, -, hdir, -⟩ := hidle.idle hl
    exact ⟨hreplay, hdir⟩
  cases heff with
  | report r => exact hw
  | construct r => exact nofun
  | initialise u hu r => exact fun _ => windowFull_ended (hu ▸ windowFull_initialisePanel hreplay hc)
  | setRotation q r hl => exact fun _ => windowFull_ended (windowFull_applyRotation (hw hl) (hdrive hl) hc q)
  | drawPixel p colour r hl => exact fun _ => windowFull_ended (windowFull_drawPixel (hw hl) (hdrive hl) hc p colour)
  | fillRectangle tl br colour r hl => exact fun _ => windowFull_ended (windowFull_fillRectangle (hdrive hl) hc tl br colour)

/-- Settles O58: no effect of a PUBLIC command writes a window register but INITIALIZE and a fill, and both end with the
writes of the full window and none to its registers after them. -/
theorem publicStepKeepsWindowFull : Obligations.PublicStepKeepsWindowFull := by
  intro s t hdisc hidle hc hw hstep
  obtain rfl | ⟨rest, heff⟩ := publicStep_cases hidle.level hstep
  · exact hw
  · exact heff.windowFull hdisc.replay (publicIdle_withRequests hidle rest) hc hw

/-! ### The writers of each item (R23 to R36) -/

/-- The instruction is among the writers the specification gives each item it changed: the conclusion of O50. -/
def ItemWriters (i : Instr) (s t : State) : Prop :=
  (∃ r, t.result = .val r) ∧ t.cfg = s.cfg ∧ t.requests = s.requests ∧ (∃ es, t.trace = s.trace ++ es) ∧
  (t.rot ≠ s.rot → i = .construct ∨ i = .initialise ∨ ∃ r, i = .setRotation r) ∧
  (t.lifecycle ≠ s.lifecycle → i = .construct ∨ i = .initialise) ∧
  (t.pins.cs ≠ s.pins.cs → i = .txnBegin ∨ i = .txnEnd ∨ ownTransaction i) ∧
  (t.pins.rs ≠ s.pins.rs → i = .txnBegin ∨ (∃ x, i = .selectRegister x ∨ i = .idxw x) ∨ ownTransaction i) ∧
  (t.pins.wr ≠ s.pins.wr → i = .txnBegin ∨ i = .wrPulse ∨
    (∃ x, i = .selectRegister x ∨ i = .idxw x ∨ i = .writeDataWord x ∨ i = .datw x) ∨ ownTransaction i) ∧
  (t.pins.rd ≠ s.pins.rd → i = .txnBegin ∨ i = .readDataWord ∨ (∃ d, i = .datr d) ∨ ownTransaction i) ∧
  (t.pins.dout ≠ s.pins.dout →
    (∃ x, i = .driveBus x ∨ i = .selectRegister x ∨ i = .idxw x ∨ i = .writeDataWord x ∨ i = .datw x) ∨
      ownTransaction i) ∧
  (t.pins.bl ≠ s.pins.bl → i = .backlightOn ∨ i = .initialise) ∧
  (t.pins.dir ≠ s.pins.dir →
    i = .setOutputMode ∨ i = .setInputMode ∨ i = .initialise ∨ i = .readDataWord ∨ ∃ d, i = .datr d) ∧
  (t.txnOpen = true → s.txnOpen = true ∨ i = .txnBegin) ∧ (t.txnOpen = false → s.txnOpen = false ∨ i = .txnEnd)

/-- A query or an error changes no item but `RESULT`, so it needs no writer. -/
theorem itemWriters_report (i : Instr) (s : State) (r : Result) (k : Nat) :
    ItemWriters i s { s with result := .val r, draws := k } := by
  simp +contextual [ItemWriters]

/-- A run of transactions by an instruction that brackets its own. -/
theorem itemWriters_busRun {i : Instr} {s u : State} {q : Rotation} (r : Result) (hi : ownTransaction i)
    (hfree : BusFree s) (hrun : BusRun { s with rot := q } u) (hrot : q ≠ s.rot → ∃ a, i = .setRotation a) :
    ItemWriters i s { u with result := .val r } := by
  obtain ⟨hopen, hdir⟩ := hfree
  obtain ⟨es, htrace, -⟩ := hrun.events
  have hout : u.pins.dir = s.pins.dir := (hrun.output hdir).trans hdir.symm
  have hclosed : u.txnOpen = false := hrun.closed hopen
  refine ⟨⟨r, rfl⟩, hrun.cfg, hrun.requests, ⟨es, htrace⟩, ?_, fun h => absurd hrun.lifecycle h, ?_⟩
  · intro h
    exact .inr (.inr (hrot fun hq => h (hrun.rot.trans hq)))
  · simp [hi, hrun.bl, hout, hopen, hclosed]

/-- `INITIALIZE` is named as a writer of every item it changes. -/
theorem itemWriters_initialise {s u : State} (r : Result) (hopen : s.txnOpen = false)
    (hrun : BusRun { panelLit s with rot := .r0 } u) :
    ItemWriters .initialise s { u with lifecycle := .initialised, result := .val r } := by
  obtain ⟨es, htrace, -⟩ := hrun.events
  have hlit : (panelLit s).trace = s.trace ++ [.pin .bl .high, .dir .out] := by simp [panelLit, setOutputMode, backlightOn]
  have hgrown : u.trace = s.trace ++ ([.pin .bl .high, .dir .out] ++ es) := by
    rw [htrace, ← List.append_assoc, ← hlit]
  have hclosed : u.txnOpen = false := hrun.closed hopen
  refine ⟨⟨r, rfl⟩, hrun.cfg, hrun.requests, ⟨_, hgrown⟩, ?_⟩
  simp [ownTransaction, hopen, hclosed]

/-- Settles O50, by the inversion lemma and the whole-state equation of each instruction. -/
theorem eachItemHasItsWriters : Obligations.EachItemHasItsWriters := by
  intro i s t h
  change ItemWriters i s t
  cases i with
  | setOutputMode =>
    obtain ⟨-, rfl⟩ := setOutputMode_next_iff.1 h
    simp +contextual [ItemWriters, setOutputMode]
  | setInputMode =>
    obtain ⟨-, rfl⟩ := setInputMode_next_iff.1 h
    simp +contextual [ItemWriters, setInputMode]
  | driveBus v =>
    obtain ⟨-, -, rfl⟩ := driveBus_next_iff.1 h
    simp +contextual [ItemWriters, driveBus]
  | sampleBus =>
    obtain ⟨-, -, rfl⟩ := sampleBus_next_iff.1 h
    simp +contextual [ItemWriters, sampleBus_eq]
  | txnBegin =>
    obtain ⟨-, -, rfl⟩ := txnBegin_next_iff.1 h
    simp +contextual [ItemWriters, txnBegin_eq]
  | txnEnd =>
    obtain ⟨-, -, rfl⟩ := txnEnd_next_iff.1 h
    simp +contextual [ItemWriters, txnEnd_eq]
  | backlightOn =>
    obtain ⟨-, rfl⟩ := backlightOn_next_iff.1 h
    simp +contextual [ItemWriters, backlightOn]
  | selectRegister x =>
    obtain ⟨-, -, -, rfl⟩ := selectRegister_next_iff.1 h
    simp +contextual [ItemWriters, selectRegister_eq]
  | idxw x =>
    obtain ⟨-, -, -, rfl⟩ := idxw_next_iff.1 h
    simp +contextual [ItemWriters, selectRegister_eq]
  | writeDataWord x =>
    obtain ⟨-, -, -, rfl⟩ := writeDataWord_next_iff.1 h
    simp +contextual [ItemWriters, writeDataWord_eq]
  | datw x =>
    obtain ⟨-, -, -, rfl⟩ := datw_next_iff.1 h
    simp +contextual [ItemWriters, writeDataWord_eq]
  | readDataWord =>
    obtain ⟨-, -, rfl⟩ := readDataWord_next_iff.1 h
    simp +contextual [ItemWriters, readDataWord_eq]
  | datr d =>
    obtain ⟨-, -, rfl⟩ := datr_next_iff.1 h
    simp +contextual [ItemWriters, readCycle, takeDriven]
  | wrPulse =>
    obtain ⟨-, -, -, -, rfl⟩ := wrPulse_next_iff.1 h
    simp +contextual [ItemWriters, wrPulse_eq]
  | construct =>
    obtain ⟨-, rfl⟩ := construct_next_iff.1 h
    simp [ItemWriters]
  | logicalSize =>
    obtain ⟨-, rfl⟩ := logicalSize_next_iff.1 h
    exact itemWriters_report _ s _ _
  | maxBottomRight =>
    obtain ⟨-, rfl⟩ := maxBottomRight_next_iff.1 h
    exact itemWriters_report _ s _ _
  | rotationFromId a =>
    obtain ⟨-, ⟨-, rfl⟩ | ⟨q, -, rfl⟩⟩ := rotationFromId_next_iff.1 h <;> exact itemWriters_report _ s _ _
  | toNative a b c d =>
    obtain ⟨-, rfl⟩ := toNative_next_iff.1 h
    obtain ⟨x, y, k, hq⟩ := mapPoint_spec (Point.ofWords a b) (Size.ofWords c d) s
    rw [hq]
    exact itemWriters_report _ s _ k
  | mapRect a b c d =>
    obtain ⟨-, rfl⟩ := mapRect_next_iff.1 h
    obtain ⟨q, k, hq⟩ := mapRect_spec (Point.ofWords a b) (Point.ofWords c d) s
    rw [hq]
    exact itemWriters_report _ s _ k
  | writeRegister x d =>
    obtain ⟨-, hfree, rfl⟩ := writeRegister_next_iff.1 h
    have hrun := BusRun.afterBus (run_writeTrace s.pins x d)
    exact itemWriters_busRun (u := afterBus s d _) (.ok .unit) trivial hfree hrun (absurd rfl)
  | writeRegisterBurst x d n =>
    obtain ⟨-, -, hfree, rfl⟩ := writeRegisterBurst_next_iff.1 h
    have hrun := BusRun.afterBus (run_burstTrace s.pins x d n.toNat)
    exact itemWriters_busRun (u := afterBus s d _) (.ok .unit) trivial hfree hrun (absurd rfl)
  | readRegister x =>
    obtain ⟨-, hfree, rfl⟩ := readRegister_next_iff.1 h
    exact itemWriters_busRun _ trivial hfree (.readRegister x s) (absurd rfl)
  | setRotation a =>
    obtain ⟨-, ⟨-, rfl⟩ | ⟨q, -, hfree, rfl⟩⟩ := setRotation_next_iff.1 h
    · exact itemWriters_report _ s _ _
    · exact itemWriters_busRun _ trivial hfree (.applyRotation q s) fun _ => ⟨a, rfl⟩
  | initialise =>
    obtain ⟨-, hopen, rfl⟩ := initialise_next_iff.1 h
    exact itemWriters_initialise _ hopen (initialise_busRun s)
  | setWindow a b c d =>
    obtain ⟨-, -, hfree, rfl⟩ := setWindow_next_iff.1 h
    exact itemWriters_busRun _ trivial hfree (.setWindow a b c d s) (absurd rfl)
  | resetWindow =>
    obtain ⟨-, hfree, rfl⟩ := resetWindow_next_iff.1 h
    exact itemWriters_busRun _ trivial hfree (.resetWindow s) (absurd rfl)
  | setPointer x y =>
    obtain ⟨-, hfree, rfl⟩ := setPointer_next_iff.1 h
    exact itemWriters_busRun _ trivial hfree (.setPointer x y s) (absurd rfl)
  | drawPixel x y colour =>
    obtain ⟨-, hfree, rfl⟩ := drawPixel_next_iff.1 h
    exact itemWriters_busRun _ trivial hfree (.drawPixel _ colour s) (absurd rfl)
  | fillRectangle a b c d colour =>
    obtain ⟨-, ⟨-, rfl⟩ | ⟨-, -, hfree, rfl⟩⟩ := fillRectangle_next_iff.1 h
    · exact itemWriters_report _ s _ _
    · exact itemWriters_busRun _ trivial hfree (.fillRectangle _ _ colour s) (absurd rfl)

/-! ### Reset and the step -/

/-- Settles O1: `State.reset` is the table of R38, item by item. -/
theorem resetStateIsTheTable : Obligations.ResetStateIsTheTable := ⟨rfl, rfl, rfl, rfl, rfl, rfl⟩

/-- Settles O7, by the step's lemma. -/
theorem stepRunsTheDecodedCommand : Obligations.StepRunsTheDecodedCommand :=
  fun _ _ _ _ hreq hdec hlevel => step_of_decode hreq hdec hlevel

/-- At reset no line has a level and no event has happened. -/
theorem disciplined_reset : Disciplined State.reset where
  replay := rfl
  legal := by simp [State.reset, LegalThrough, Legal, Pins.reset]
  opened := nofun
  closed := fun _ => ⟨nofun, rfl⟩
  selected := nofun
  loaded := nofun

theorem publicIdle_reset : PublicIdle State.reset := ⟨rfl, rfl, nofun, fun _ => rfl⟩

/-- Settles O59: the window's clause holds because reset is not initialised. -/
theorem resetMeetsTheInvariants : Obligations.ResetMeetsTheInvariants := ⟨disciplined_reset, publicIdle_reset, nofun⟩

end Sys2Proof.Proofs
end

section
/-! PROOF. The memory family (spec/20_memory.md): the value a read samples reaches the trace and the result alone (R61). Two
states that agree but for their samples still agree after the same sequence, so the whole of `INITIALIZE` keeps them together
(R183). -/

namespace Sys2Proof.Proofs

open Sys2Proof.Machine Sys2Proof.Safety Sys2Proof.Laws

/-! ### Two states that agree but for their samples -/

/-- Two states that may differ only in the position in the free values, the result, the host's words and the values of the
samples in their traces. -/
structure AgreeButSamples (s u : State) : Prop where
  pins        : u.pins = s.pins
  rot         : u.rot = s.rot
  lifecycle   : u.lifecycle = s.lifecycle
  cfg         : u.cfg = s.cfg
  txnOpen     : u.txnOpen = s.txnOpen
  txnSelected : u.txnSelected = s.txnSelected
  txnLoaded   : u.txnLoaded = s.txnLoaded
  trace       : withoutSamples u.trace = withoutSamples s.trace

variable {s u : State}

theorem AgreeButSamples.draws (s : State) (k : Nat) : AgreeButSamples s { s with draws := k } :=
  ⟨rfl, rfl, rfl, rfl, rfl, rfl, rfl, rfl⟩

/-- Appending events that are the same but for their samples keeps the traces together. -/
theorem AgreeButSamples.trace_append (h : AgreeButSamples s u) {es fs : List Event}
    (hes : withoutSamples fs = withoutSamples es) :
    withoutSamples (u.trace ++ fs) = withoutSamples (s.trace ++ es) := by
  rw [withoutSamples_append, withoutSamples_append, h.trace, hes]

theorem AgreeButSamples.emit (h : AgreeButSamples s u) (es : List Event) : AgreeButSamples (emit es s) (emit es u) :=
  { h with pins := congrArg (·.run es) h.pins, trace := h.trace_append rfl }

/-! ### The sequences keep the agreement -/

theorem AgreeButSamples.sampleBus (h : AgreeButSamples s u) : AgreeButSamples (sampleBus s).2 (sampleBus u).2 :=
  { h with trace := h.trace_append rfl }

theorem AgreeButSamples.readDataWord (h : AgreeButSamples s u) :
    AgreeButSamples (readDataWord s).2 (readDataWord u).2 := by
  rw [readDataWord_eq, readDataWord_eq]
  exact { h with
    pins := congrArg (fun p : Pins => { p with rd := .val .high, dir := .val .out }) h.pins
    txnLoaded := rfl
    trace := h.trace_append rfl }

theorem AgreeButSamples.writeRegister (h : AgreeButSamples s u) (i d : Word) :
    AgreeButSamples (writeRegister i d s).2 (writeRegister i d u).2 := by
  rw [writeRegister_eq, writeRegister_eq]
  exact { h with
    pins := congrArg (idleWith · d) h.pins
    txnOpen := rfl, txnSelected := rfl, txnLoaded := rfl
    trace := h.trace_append rfl }

/-- The two reads may sample different words; their traces differ nowhere else (R148). -/
theorem AgreeButSamples.readRegister (h : AgreeButSamples s u) (i : Word) :
    AgreeButSamples (readRegister i s).2 (readRegister i u).2 := by
  obtain ⟨v, hs⟩ := readRegister_spec i s
  obtain ⟨w, hu⟩ := readRegister_spec i u
  rw [hs, hu]
  exact { h with
    pins := congrArg (fun p => { idleWith p i with dir := .val .out }) h.pins
    txnOpen := rfl, txnSelected := rfl, txnLoaded := rfl
    trace := h.trace_append (es := readTrace i v) (fs := readTrace i w) rfl }

theorem AgreeButSamples.perform (h : AgreeButSamples s u) (a : Access) : AgreeButSamples (perform s a) (perform u a) := by
  cases a with
  | write i d => exact h.writeRegister i d
  | read i => exact h.readRegister i
  | waitMs n => exact h.emit [.delayMs n]

theorem AgreeButSamples.performAll (h : AgreeButSamples s u) (as : List Access) :
    AgreeButSamples (performAll as s) (performAll as u) := by
  induction as generalizing s u with
  | nil => exact h
  | cons a as ih => exact ih (h.perform a)

theorem AgreeButSamples.applyRotation (h : AgreeButSamples s u) (r : Rotation) :
    AgreeButSamples (applyRotation r s) (applyRotation r u) := by
  rw [applyRotation_eq, applyRotation_eq]
  exact { h with
    rot := rfl
    pins := congrArg₂ (fun p (c : Config) => idleWith p (entryModeWord c.em r)) h.pins h.cfg
    txnOpen := rfl, txnSelected := rfl, txnLoaded := rfl
    trace := h.trace_append (by rw [h.cfg]) }

theorem AgreeButSamples.resetWindow (h : AgreeButSamples s u) : AgreeButSamples (resetWindow s) (resetWindow u) := by
  simp only [Machine.resetWindow, Machine.setWindow, h.cfg]
  exact h.performAll _

/-- From the accesses, which the configuration alone fixes, to the whole of `INITIALIZE` (R183). -/
theorem AgreeButSamples.initialisePanel (h : AgreeButSamples s u) :
    AgreeButSamples (initialisePanel s) (initialisePanel u) := by
  have hlit : AgreeButSamples (panelLit s) (panelLit u) := (h.emit _).emit _
  have hpowered : AgreeButSamples (panelPowered s) (panelPowered u) := by
    simp only [panelPowered, hlit.cfg]
    exact hlit.performAll _
  have hturned : AgreeButSamples (panelTurned s) (panelTurned u) := hpowered.applyRotation .r0
  rw [initialisePanel_eq, initialisePanel_eq, h.cfg]
  exact hturned.resetWindow.performAll _

/-! ### The commands that sample -/

/-- Two answers with the same precondition, whose next states agree but for their samples: refused together, or that
agreement. -/
theorem refuse_or_agree {x y : Answer} {p : Prop} {a b : State} (hx : ∀ {t}, x = .next t ↔ p ∧ t = a)
    (hy : ∀ {t}, y = .next t ↔ p ∧ t = b) (hab : AgreeButSamples a b) :
    (Refuses x ∧ Refuses y) ∨ ∃ t u, x = .next t ∧ y = .next u ∧ AgreeButSamples t u := by
  by_cases hp : p
  · exact .inr ⟨a, b, hx.2 ⟨hp, rfl⟩, hy.2 ⟨hp, rfl⟩, hab⟩
  · exact .inl ⟨refuses_iff.2 fun t ht => hp (hx.1 ht).1, refuses_iff.2 fun t ht => hp (hy.1 ht).1⟩

/-- What a command reports is no part of the agreement. -/
theorem AgreeButSamples.withResult (h : AgreeButSamples s u) (q r : Latch Result) :
    AgreeButSamples { s with result := q } { u with result := r } := { h with }

theorem samplingCommand_refuse_or_agree (i : Instr) (s : State) (k : Nat)
    (hi : i = .sampleBus ∨ i = .readDataWord ∨ (∃ a, i = .readRegister a) ∨ i = .initialise) :
    (Refuses (exec i s) ∧ Refuses (exec i { s with draws := k })) ∨
    ∃ t u, exec i s = .next t ∧ exec i { s with draws := k } = .next u ∧ AgreeButSamples t u := by
  have h : AgreeButSamples s { s with draws := k } := .draws s k
  obtain rfl | rfl | ⟨a, rfl⟩ | rfl := hi
  · exact refuse_or_agree (sampleBus_next_iff.trans and_assoc.symm) (sampleBus_next_iff.trans and_assoc.symm)
      (h.sampleBus.withResult _ _)
  · exact refuse_or_agree (readDataWord_next_iff.trans and_assoc.symm) (readDataWord_next_iff.trans and_assoc.symm)
      (h.readDataWord.withResult _ _)
  · exact refuse_or_agree (readRegister_next_iff.trans and_assoc.symm) (readRegister_next_iff.trans and_assoc.symm)
      ((h.readRegister a).withResult _ _)
  · have hpanel : AgreeButSamples { initialisePanel s with lifecycle := .initialised }
        { initialisePanel { s with draws := k } with lifecycle := .initialised } :=
      { h.initialisePanel with lifecycle := rfl }
    exact refuse_or_agree (initialise_next_iff.trans and_assoc.symm) (initialise_next_iff.trans and_assoc.symm)
      (hpanel.withResult _ _)

/-- Settles O54: no precondition of these commands reads a sample, and every sequence they run keeps the agreement. -/
theorem sampledValuesSteerNothing : Obligations.SampledValuesSteerNothing := by
  intro i s k hi
  refine (samplingCommand_refuse_or_agree i s k hi).imp_right ?_
  rintro ⟨t, u, ht, hu, h⟩
  exact ⟨t, u, ht, hu, h.pins, h.rot, h.lifecycle, h.txnOpen, h.txnSelected, h.txnLoaded, h.trace⟩

end Sys2Proof.Proofs
end

section
/-! PROOF. The encoding family (spec/30_encoding.md): words and instructions are one to one (R87 to R92), the result word
(R91), what a step refuses (R98, R99) and what completes (R100), and the bus discipline every step keeps (R81, R85). -/

namespace Sys2Proof.Proofs

open Sys2Proof.Machine Sys2Proof.Safety Sys2Proof.Laws

/-! ### Words and instructions (R81 to R90, R92) -/

/-- A packed command word is decoded by its fields (R87). -/
theorem decode_pack (f : Fields) : decode (.command f.pack) = decodeFields f :=
  congrArg decodeFields (fieldsOf_pack f)

/-- A packed pin vector whose control bits are those of a cycle is that cycle with its data bits (R82 to R84). -/
theorem decode_packCycle (d : Word) :
    decode (.busCycle (packCycle 0b0001 d)) = .ok (.idxw d) ∧ decode (.busCycle (packCycle 0b0101 d)) = .ok (.datw d) ∧
    decode (.busCycle (packCycle 0b0110 d)) = .ok (.datr d) := by
  simp only [decode, decodeCycle, packCycle_fields]
  exact ⟨rfl, rfl, rfl⟩

/-- Settles O2: an instruction's word is its row's fields packed, which unpack to themselves, so the decoder finds the same
row. -/
theorem decodeOfEncode : Obligations.DecodeOfEncode := by
  intro i
  cases i with
  | idxw d => exact (decode_packCycle d).1
  | datw d => exact (decode_packCycle d).2.1
  | datr d => exact (decode_packCycle d).2.2
  | _ => exact decode_pack _

/-- With `Z` and the unused fields zero, the fields the row lists make the whole word (R89). -/
theorem pack_of_unusedZero {f : Fields} {op : BitVec 8} {a b c d e n : Bool} (hop : f.op = op)
    (h : f.unusedZero a b c d e n = true) :
    Fields.pack { op := op, a := cond a f.a 0, b := cond b f.b 0, c := cond c f.c 0, d := cond d f.d 0, e := cond e f.e 0,
                  n := cond n f.n 0 } = f.pack := by
  have hfield {w : Nat} {used : Bool} {x : BitVec w} (hx : (used || x == 0) = true) : cond used x 0 = x := by
    cases used <;> simp_all
  simp only [Fields.unusedZero, Bool.and_eq_true, beq_iff_eq] at h
  obtain ⟨⟨⟨⟨⟨⟨hz, ha⟩, hb⟩, hc⟩, hd⟩, he⟩, hn⟩ := h
  rw [hfield ha, hfield hb, hfield hc, hfield hd, hfield he, hfield hn, ← hop, ← hz]

/-- Fields that decode are packed in the word of their instruction. -/
theorem encode_of_decodeFields {f : Fields} {i : Instr} (h : decodeFields f = .ok i) : encode i = .command f.pack := by
  unfold decodeFields at h
  split at h
  case h_28 => cases h
  all_goals
    rename_i hop
    obtain ⟨hzero, rfl⟩ := acceptIf_ok_iff.1 h
    have hpack := pack_of_unusedZero hop hzero
    exact congrArg Encoded.command hpack

/-- A pin vector that decodes is that of its cycle. -/
theorem encode_of_decodeCycle {b : PinVector} {i : Instr} (h : decodeCycle b = .ok i) : encode i = .busCycle b := by
  unfold decodeCycle at h
  split at h
  case h_4 => cases h
  all_goals
    rename_i hcontrol
    cases h
    have hpack := packCycle_of_fields b
    rw [hcontrol] at hpack
    exact congrArg Encoded.busCycle hpack

/-- Settles O3: a command word and a pin vector are their own fields packed. -/
theorem encodeOfDecode : Obligations.EncodeOfDecode := by
  intro e i h
  cases e with
  | command w => exact (encode_of_decodeFields h).trans (congrArg _ (pack_fieldsOf w))
  | busCycle b => exact encode_of_decodeCycle h

/-- Settles O4: each row of the decoder's table has a listed opcode, so only its last arm is left. -/
theorem unassignedOpcodesAreIllegal : Obligations.UnassignedOpcodesAreIllegal := by
  intro w hop
  change decodeFields (fieldsOf w) = .error .unassignedOpcode
  change (fieldsOf w).op ∉ _ at hop
  unfold decodeFields
  split
  case h_28 => rfl
  all_goals
    rename_i hrow
    rw [hrow] at hop
    exact absurd (by decide) hop

/-- Settles O5: each word is closed, so the decoder is run on it. -/
theorem wordsFromTheTableDecode : Obligations.WordsFromTheTableDecode := by
  unfold Obligations.WordsFromTheTableDecode
  decide

/-! ### The result word (R91) -/

/-- A finished command's result is what the `RES` port carries. -/
theorem res_of_result {s : State} {r : Result} (h : s.result = .val r) : s.res = .val r.word := by
  simp only [State.res, h]

/-- Settles O6, kind by kind of the result. -/
theorem resultWordLayout : Obligations.ResultWordLayout := by
  refine ⟨?_, ?_, ?_, ?_, ?_, ?_, ?_, ?_⟩
  · intro s h
    simp only [State.res, h]
  · intro s k h
    rw [res_of_result h]
    cases k <;> rfl
  · exact fun s h => res_of_result h
  · exact fun s v h => res_of_result h
  · exact fun s x y h => res_of_result h
  · exact fun s w h hr => res_of_result hr
  · exact fun s xs ys xe ye h => res_of_result h
  · intro s r h
    rw [res_of_result h]
    cases r <;> rfl

/-! ### What a step refuses (R98, R99, R240) -/

/-- With a word on the port a step takes it off and runs it. -/
theorem step_of_requests {s : State} {e : Encoded} {rest : List Encoded} (h : s.requests = e :: rest) :
    step s = runRequest e { s with requests := rest } := by
  have hnext : nextRequest s = some (e, { s with requests := rest }) := by simp only [nextRequest, h]
  simp only [step, stepRequest, hnext]

/-- Settles O8: the port's three cases, a word that does not decode, an `INTERNAL` instruction, and no word. -/
theorem stepRefusesIllegalAndInternalWords : Obligations.StepRefusesIllegalAndInternalWords := by
  refine ⟨?_, ?_, ?_⟩
  · intro s e rest why hreq hdec
    rw [step_of_requests hreq]
    simp only [runRequest, hdec]
  · intro s e rest i hreq hdec hinternal hpub
    rw [step_of_requests hreq]
    simp [runRequest, hdec, admitLevel, require, hinternal, hpub]
  · intro s hreq
    have hnext : nextRequest s = none := by simp only [nextRequest, hreq]
    simp only [step, stepRequest, hnext]

/-! ### The bus-cycle rows (R82 to R84) -/

/-- A read cycle whose word the chip drives: everything it does (R84). -/
theorem readCycle_takeDriven_eq (d : Word) (s : State) :
    (readCycle (takeDriven d) s).2 =
      { s with pins := { s.pins with rd := .val .high, dir := .val .out }
               trace := s.trace ++ [.dir .inp, .pin .rd .low, .delayUs 1, .sample d, .pin .rd .high, .dir .out]
               txnLoaded := false } := by
  simp [readCycle, takeDriven, emit]

/-- Settles O27, by the inversion lemma and the whole-state equation of each row. -/
theorem busCycleRowsProduceTheirCycle : Obligations.BusCycleRowsProduceTheirCycle := by
  refine ⟨?_, ?_, ?_⟩
  · intro index s hcons hopen hdir hcs hrs hwr hrd
    refine ⟨_, idxw_next_iff.2 ⟨hcons, hopen, hdir, rfl⟩, ?_⟩
    rw [selectRegister_eq, gained_of_append rfl]
    simp [cyclesFrom, cycleAt, hcs, hrs, hwr, hrd, hdir]
  · intro data s hcons hsel hdir hcs hwr hrd
    have ⟨_, hrs, _⟩ := hsel
    refine ⟨_, datw_next_iff.2 ⟨hcons, hsel, hdir, rfl⟩, ?_⟩
    rw [writeDataWord_eq, gained_of_append rfl]
    simp [cyclesFrom, cycleAt, hcs, hrs, hwr, hrd, hdir]
  · intro data s hcons hsel hdir hcs hwr hrd
    have ⟨_, hrs, _⟩ := hsel
    refine ⟨_, datr_next_iff.2 ⟨hcons, hsel, rfl⟩, ?_⟩
    have hpins : ({ s.pins with rd := .val .high, dir := .val .out } : Pins) = s.pins := by rw [← hrd, ← hdir]
    rw [readCycle_takeDriven_eq, hpins, gained_of_append rfl]
    simp [cyclesFrom, cycleAt, hcs, hrs, hwr]

/-! ### Every well-formed instruction completes (R100, R222) -/

theorem constructed_readyConstructed (s : State) : Constructed (readyConstructed s) := by
  unfold readyConstructed
  split <;> simp_all [Constructed]

theorem readyNoTransaction_lifecycle (s : State) : (readyNoTransaction s).lifecycle = s.lifecycle := by
  unfold readyNoTransaction
  split <;> rfl

theorem readyNoTransaction_txnOpen (s : State) : (readyNoTransaction s).txnOpen = false := by
  unfold readyNoTransaction
  split <;> simp_all

/-- The lines outputs and no transaction open: a composite can run, in the phase the machine was in. -/
theorem busFree_ready (s : State) : BusFree (readyMode .out (readyNoTransaction s)) :=
  ⟨readyNoTransaction_txnOpen s, rfl⟩

theorem constructed_readyNoTransaction (s : State) : Constructed (readyNoTransaction (readyConstructed s)) := by
  rw [Constructed, readyNoTransaction_lifecycle]
  exact constructed_readyConstructed s

theorem selected_readyTransaction (s : State) : Selected (readyTransaction s) := ⟨rfl, rfl, rfl⟩

/-- Settles O9: `readyFor` makes what each instruction's inversion lemma asks for. -/
theorem everyAdmittedInstructionCompletes : Obligations.EveryAdmittedInstructionCompletes := by
  intro i s hwf
  have hcons := constructed_readyConstructed s
  have hclosed := constructed_readyNoTransaction s
  have hfree := busFree_ready (readyConstructed s)
  have hinit : (readyMode .out (readyNoTransaction (readyInitialised s))).lifecycle = .initialised :=
    readyNoTransaction_lifecycle _
  have hdraw := busFree_ready (readyInitialised s)
  have hsel := selected_readyTransaction (readyConstructed s)
  cases i with
  | setOutputMode => exact ⟨_, setOutputMode_next_iff.2 ⟨hcons, rfl⟩⟩
  | setInputMode => exact ⟨_, setInputMode_next_iff.2 ⟨hcons, rfl⟩⟩
  | driveBus v => exact ⟨_, driveBus_next_iff.2 ⟨hcons, rfl, rfl⟩⟩
  | sampleBus => exact ⟨_, sampleBus_next_iff.2 ⟨hcons, rfl, rfl⟩⟩
  | txnBegin => exact ⟨_, txnBegin_next_iff.2 ⟨hclosed, readyNoTransaction_txnOpen _, rfl⟩⟩
  | txnEnd => exact ⟨_, txnEnd_next_iff.2 ⟨hcons, rfl, rfl⟩⟩
  | backlightOn => exact ⟨_, backlightOn_next_iff.2 ⟨hcons, rfl⟩⟩
  | selectRegister x => exact ⟨_, selectRegister_next_iff.2 ⟨hcons, rfl, rfl, rfl⟩⟩
  | writeDataWord d => exact ⟨_, writeDataWord_next_iff.2 ⟨hcons, hsel, rfl, rfl⟩⟩
  | readDataWord => exact ⟨_, readDataWord_next_iff.2 ⟨hcons, hsel, rfl⟩⟩
  | wrPulse => exact ⟨_, wrPulse_next_iff.2 ⟨hcons, hsel, rfl, rfl, rfl⟩⟩
  | writeRegister x d => exact ⟨_, writeRegister_next_iff.2 ⟨hclosed, hfree, rfl⟩⟩
  | readRegister x => exact ⟨_, readRegister_next_iff.2 ⟨hclosed, hfree, rfl⟩⟩
  | writeRegisterBurst x d n =>
    exact ⟨_, writeRegisterBurst_next_iff.2 ⟨hclosed, of_decide_eq_true hwf, hfree, rfl⟩⟩
  | setRotation a =>
    cases hid : Rotation.ofId a.toNat with
    | none => exact ⟨_, setRotation_next_iff.2 ⟨hinit, .inl ⟨hid, rfl⟩⟩⟩
    | some q => exact ⟨_, setRotation_next_iff.2 ⟨hinit, .inr ⟨q, hid, hdraw, rfl⟩⟩⟩
  | logicalSize => exact ⟨_, logicalSize_next_iff.2 ⟨hcons, rfl⟩⟩
  | toNative a b c d => exact ⟨_, toNative_next_iff.2 ⟨hcons, rfl⟩⟩
  | mapRect a b c d => exact ⟨_, mapRect_next_iff.2 ⟨hcons, rfl⟩⟩
  | maxBottomRight => exact ⟨_, maxBottomRight_next_iff.2 ⟨hcons, rfl⟩⟩
  | rotationFromId a =>
    cases hid : Rotation.ofId a.toNat with
    | none => exact ⟨_, rotationFromId_next_iff.2 ⟨hcons, .inl ⟨hid, rfl⟩⟩⟩
    | some q => exact ⟨_, rotationFromId_next_iff.2 ⟨hcons, .inr ⟨q, hid, rfl⟩⟩⟩
  | construct => exact ⟨_, construct_next_iff.2 ⟨rfl, rfl⟩⟩
  | initialise => exact ⟨_, initialise_next_iff.2 ⟨hclosed, readyNoTransaction_txnOpen _, rfl⟩⟩
  | setWindow xs ys xe ye =>
    have hordered : xs.toNat ≤ xe.toNat ∧ ys.toNat ≤ ye.toNat := by simpa [Instr.WellFormed, Instr.wf] using hwf
    exact ⟨_, setWindow_next_iff.2 ⟨hclosed, hordered, hfree, rfl⟩⟩
  | resetWindow => exact ⟨_, resetWindow_next_iff.2 ⟨hclosed, hfree, rfl⟩⟩
  | setPointer x y => exact ⟨_, setPointer_next_iff.2 ⟨hclosed, hfree, rfl⟩⟩
  | drawPixel x y colour => exact ⟨_, drawPixel_next_iff.2 ⟨hinit, hdraw, rfl⟩⟩
  | fillRectangle a b c d colour =>
    by_cases hordered : a.toNat ≤ c.toNat ∧ b.toNat ≤ d.toNat
    · exact ⟨_, fillRectangle_next_iff.2 ⟨hinit, .inr ⟨hordered.1, hordered.2, hdraw, rfl⟩⟩⟩
    · exact ⟨_, fillRectangle_next_iff.2 ⟨hinit, .inl ⟨by omega, rfl⟩⟩⟩
  | idxw x => exact ⟨_, idxw_next_iff.2 ⟨hcons, rfl, rfl, rfl⟩⟩
  | datw d => exact ⟨_, datw_next_iff.2 ⟨hcons, hsel, rfl, rfl⟩⟩
  | datr d => exact ⟨_, datr_next_iff.2 ⟨hcons, hsel, rfl⟩⟩

/-! ### The bus discipline: what it says of one state, and how it grows -/

variable {s t : State}

/-- The levels of a disciplined state are legal (R81, R85). -/
theorem legal_of_disciplined (h : Disciplined s) : Legal s.pins := by
  rw [h.replay]
  exact legalThrough_run h.legal

/-- Between commands no strobe is low (R140). -/
theorem strobes_of_disciplined (h : Disciplined s) : s.pins.wr ≠ .val .low ∧ s.pins.rd ≠ .val .low := by
  cases hopen : s.txnOpen with
  | false => exact legal_strobes (legal_of_disciplined h) (h.closed hopen).1
  | true =>
    obtain ⟨-, -, hwr, hrd⟩ := h.opened hopen
    simp [hwr, hrd]

theorem replay_append (h : Disciplined s) {es : List Event} {p : Pins} (hp : s.pins.run es = p) :
    p = Pins.reset.run (s.trace ++ es) := by
  rw [run_append, ← h.replay, hp]

theorem legal_append (h : Disciplined s) {es : List Event} (hes : LegalThrough s.pins es) :
    LegalThrough Pins.reset (s.trace ++ es) :=
  (legalThrough_append _ _ _).2 ⟨h.legal, h.replay ▸ hes⟩

/-- The rotation, the phase, the result, the host's words and the counter of free values are no part of the discipline. -/
theorem disciplined_reported (h : Disciplined s) (q : Rotation) (l : Lifecycle) (r : Latch Result) (es : List Encoded)
    (k : Nat) : Disciplined { s with rot := q, lifecycle := l, result := r, requests := es, draws := k } :=
  ⟨h.replay, h.legal, h.opened, h.closed, h.selected, h.loaded⟩

/-- An event that moves neither the chip select, the phase nor a strobe, and takes no word off the data lines. -/
theorem disciplined_emit_quiet (h : Disciplined s) {e : Event} {bl : Latch Level} {dir : Latch DataMode} {dout : Latch Word}
    (he : s.pins.apply e = { s.pins with bl := bl, dir := dir, dout := dout }) (hdout : dout = .bot → s.pins.dout = .bot) :
    Disciplined (emit [e] s) := by
  obtain ⟨hwr, hrd⟩ := strobes_of_disciplined h
  have hlegal := legal_of_disciplined h
  have ⟨_, _, hlow, hhigh⟩ := hlegal
  have hquiet : Legal (s.pins.apply e) := by
    rw [he]
    exact ⟨fun hw => absurd hw hwr, fun hr => absurd hr hrd, hlow, hhigh⟩
  have hpins : (emit [e] s).pins = { s.pins with bl := bl, dir := dir, dout := dout } := he
  exact
    { replay := replay_append h rfl
      legal := legal_append h ⟨hlegal, hquiet⟩
      opened := by rw [hpins]; exact h.opened
      closed := by rw [hpins]; exact h.closed
      selected := h.selected
      loaded := fun hl hbot => h.loaded hl (hdout (by rw [hpins] at hbot; exact hbot)) }

/-! ### The primitives of an open transaction (R124, R125, R141 to R144) -/

theorem disciplined_txnBegin (h : Disciplined s) (hopen : s.txnOpen = false) : Disciplined (txnBegin s) := by
  have hlegal := legal_of_disciplined h
  obtain ⟨hwr, hrd⟩ := strobes_of_disciplined h
  obtain ⟨hcs, -⟩ := h.closed hopen
  rw [txnBegin_eq]
  exact
    { replay := replay_append h rfl
      legal := legal_append h (by
        simp only [LegalThrough, apply_rs, apply_rd, apply_wr, apply_cs, apply_delayUs]
        refine ⟨hlegal, ?_⟩
        simp only [Legal, hwr, hrd, hcs, false_implies, true_and]
        simp +contextual [hlegal.2.2.2])
      opened := fun _ => ⟨rfl, rfl, rfl, rfl⟩
      closed := nofun
      selected := nofun
      loaded := nofun }

theorem disciplined_txnEnd (h : Disciplined s) (hopen : s.txnOpen = true) : Disciplined (txnEnd s) := by
  obtain ⟨hcs, hrs, hwr, hrd⟩ := h.opened hopen
  rw [txnEnd_eq]
  exact
    { replay := replay_append h rfl
      legal := legal_append h (by simp [LegalThrough, Legal, hcs, hrs, hwr, hrd])
      opened := nofun
      closed := fun _ => ⟨nofun, rfl⟩
      selected := nofun
      loaded := nofun }

theorem disciplined_selectRegister (h : Disciplined s) (hopen : s.txnOpen = true) (hdir : s.pins.dir = .val .out) (i : Word) :
    Disciplined (selectRegister i s) := by
  obtain ⟨hcs, hrs, hwr, hrd⟩ := h.opened hopen
  rw [selectRegister_eq]
  exact
    { replay := replay_append h rfl
      legal := legal_append h (by simp [LegalThrough, Legal, hcs, hrs, hwr, hrd, hdir])
      opened := fun _ => ⟨hcs, rfl, rfl, hrd⟩
      closed := by simp [hopen]
      selected := fun _ => rfl
      loaded := nofun }

theorem disciplined_writeDataWord (h : Disciplined s) (hsel : Selected s) (hdir : s.pins.dir = .val .out) (d : Word) :
    Disciplined (writeDataWord d s) := by
  obtain ⟨hopen, -, hselected⟩ := hsel
  obtain ⟨hcs, hrs, hwr, hrd⟩ := h.opened hopen
  rw [writeDataWord_eq]
  exact
    { replay := replay_append h rfl
      legal := legal_append h (by simp [LegalThrough, Legal, hcs, hrs, hwr, hrd, hdir])
      opened := fun _ => ⟨hcs, hrs, rfl, hrd⟩
      closed := by simp [hopen]
      selected := fun _ => hselected
      loaded := fun _ => nofun }

theorem disciplined_wrPulse (h : Disciplined s) (hsel : Selected s) (hdir : s.pins.dir = .val .out)
    (hloaded : s.txnLoaded = true) : Disciplined (wrPulse s) := by
  obtain ⟨hopen, -, hselected⟩ := hsel
  obtain ⟨hcs, hrs, hwr, hrd⟩ := h.opened hopen
  rw [wrPulse_eq]
  exact
    { replay := replay_append h rfl
      legal := legal_append h (by simp [LegalThrough, Legal, hcs, hrs, hwr, hrd, hdir, h.loaded hloaded])
      opened := fun _ => ⟨hcs, hrs, rfl, hrd⟩
      closed := by simp [hopen]
      selected := fun _ => hselected
      loaded := fun _ => h.loaded hloaded }

/-- A data-read cycle, whatever word is sampled in it (R84, R143). -/
theorem disciplined_dataRead (h : Disciplined s) (hsel : Selected s) (v : Word) :
    Disciplined
      { s with pins := { s.pins with rd := .val .high, dir := .val .out }
               trace := s.trace ++ [.dir .inp, .pin .rd .low, .delayUs 1, .sample v, .pin .rd .high, .dir .out]
               txnLoaded := false } := by
  obtain ⟨hopen, -, -⟩ := hsel
  obtain ⟨hcs, hrs, hwr, hrd⟩ := h.opened hopen
  exact
    { replay := replay_append h rfl
      legal := legal_append h (by simp [LegalThrough, Legal, hcs, hrs, hwr, hrd])
      opened := fun _ => ⟨hcs, hrs, hwr, rfl⟩
      closed := by simp [hopen]
      selected := nofun
      loaded := nofun }

/-! ### Transactions of their own (R126, R146 to R148) -/

/-- The bus discipline where a transaction can start: none is open, and the data lines are outputs (R100). -/
structure Parked (s : State) : Prop where
  disciplined : Disciplined s
  free        : BusFree s

/-- The legal traces of the composites are stated from such levels. -/
theorem Parked.startable (h : Parked s) : Startable s.pins := by
  obtain ⟨hopen, hdir⟩ := h.free
  exact ⟨legal_of_disciplined h.disciplined, hdir, (h.disciplined.closed hopen).1⟩

/-- A run of transactions that keeps the discipline leaves the bus free. -/
theorem Parked.of_busRun (h : Parked s) (ht : Disciplined t) (hrun : BusRun s t) : Parked t :=
  ⟨ht, hrun.closed h.free.1, hrun.output h.free.2⟩

theorem Parked.draws (h : Parked s) (k : Nat) : Parked { s with draws := k } :=
  ⟨disciplined_reported h.disciplined _ _ _ _ k, h.free⟩

/-- One whole transaction, with a legal trace that ends with the chip not selected. -/
theorem disciplined_transaction (h : Disciplined s) {es : List Event} {p : Pins} (hes : LegalThrough s.pins es)
    (hp : s.pins.run es = p) (hcs : p.cs = .val .high) :
    Disciplined { s with pins := p, trace := s.trace ++ es, txnOpen := false, txnSelected := false, txnLoaded := false } where
  replay := replay_append h hp
  legal := legal_append h hes
  opened := nofun
  closed := fun _ => ⟨by simp [hcs], rfl⟩
  selected := nofun
  loaded := nofun

theorem Parked.writeRegister (h : Parked s) (i d : Word) : Parked (writeRegister i d s).2 := by
  refine h.of_busRun ?_ (.writeRegister i d s)
  rw [writeRegister_eq]
  exact disciplined_transaction h.disciplined (legalThrough_writeTrace h.startable i d) (run_writeTrace _ i d) rfl

theorem Parked.writeRegisterBurst (h : Parked s) (i d : Word) (n : Nat) : Parked (writeRegisterBurst i d n s).2 := by
  refine h.of_busRun ?_ (.writeRegisterBurst i d n s)
  rw [writeRegisterBurst_eq]
  exact disciplined_transaction h.disciplined (legalThrough_burstTrace h.startable i d n) (run_burstTrace _ i d n) rfl

theorem Parked.readRegister (h : Parked s) (i : Word) : Parked (readRegister i s).2 := by
  refine h.of_busRun ?_ (.readRegister i s)
  obtain ⟨v, hv⟩ := readRegister_spec i s
  have hread := disciplined_transaction h.disciplined (legalThrough_readTrace h.startable i v) (run_readTrace _ i v) rfl
  rw [hv]
  exact disciplined_reported hread s.rot s.lifecycle s.result s.requests (s.draws + 1)

theorem Parked.perform (h : Parked s) (a : Access) : Parked (perform s a) := by
  cases a with
  | write i d => exact h.writeRegister i d
  | read i => exact h.readRegister i
  | waitMs n => exact h.of_busRun (disciplined_emit_quiet h.disciplined rfl id) (.delayMs n s)

theorem Parked.performAll (h : Parked s) (as : List Access) : Parked (performAll as s) := by
  induction as generalizing s with
  | nil => exact h
  | cons a as ih => exact ih (h.perform a)

theorem Parked.applyRotation (h : Parked s) (r : Rotation) : Parked (applyRotation r s) :=
  have hrot : Parked { s with rot := r } := ⟨disciplined_reported h.disciplined r _ _ _ _, h.free⟩
  hrot.writeRegister _ _

theorem Parked.fillWindow (h : Parked s) (tl br : Point) : Parked (fillWindow tl br s) := by
  obtain ⟨xs, ys, xe, ye, px, py, k, hfill⟩ := fillWindow_spec tl br s
  have hperform := performAll_window s.cfg xs ys xe ye px py { s with draws := k }
  rw [hfill, ← hperform]
  exact (h.draws k).performAll _

theorem Parked.drawPixel (h : Parked s) (p : Point) (colour : Word) : Parked (drawPixel p colour s) := by
  obtain ⟨x, y, k, hdraw⟩ := drawPixel_spec p colour s
  rw [hdraw]
  exact (h.draws k).performAll _

theorem Parked.fillRectangle (h : Parked s) (tl br : Point) (colour : Word) : Parked (fillRectangle tl br colour s) := by
  rw [fillRectangle_eq]
  exact ((h.fillWindow tl br).writeRegisterBurst _ _ _).performAll _

/-- `INITIALIZE` makes the lines outputs itself, so it needs no more than that no transaction is open (R183). -/
theorem parked_panelLit (h : Disciplined s) (hopen : s.txnOpen = false) : Parked (panelLit s) where
  disciplined := disciplined_emit_quiet (disciplined_emit_quiet h rfl id) rfl id
  free := ⟨hopen, rfl⟩

theorem parked_initialisePanel (h : Disciplined s) (hopen : s.txnOpen = false) : Parked (initialisePanel s) := by
  have hturned : Parked (panelTurned s) := ((parked_panelLit h hopen).performAll _).applyRotation .r0
  rw [initialisePanel_eq]
  exact (hturned.performAll _).performAll _

/-! ### Every step -/

/-- Every instruction that ends keeps the bus discipline. -/
theorem disciplined_exec (h : Disciplined s) {i : Instr} (hexec : exec i s = .next t) : Disciplined t := by
  cases i with
  | setOutputMode =>
    obtain ⟨-, rfl⟩ := setOutputMode_next_iff.1 hexec
    exact disciplined_reported (disciplined_emit_quiet h rfl id) _ _ _ _ _
  | setInputMode =>
    obtain ⟨-, rfl⟩ := setInputMode_next_iff.1 hexec
    exact disciplined_reported (disciplined_emit_quiet h rfl id) _ _ _ _ _
  | driveBus v =>
    obtain ⟨-, -, rfl⟩ := driveBus_next_iff.1 hexec
    exact disciplined_reported (disciplined_emit_quiet h (dout := .val v) rfl nofun) _ _ _ _ _
  | sampleBus =>
    obtain ⟨-, -, rfl⟩ := sampleBus_next_iff.1 hexec
    exact disciplined_reported (disciplined_emit_quiet h (e := .sample (sampledValue s)) rfl id) _ _ _ _ _
  | txnBegin =>
    obtain ⟨-, hopen, rfl⟩ := txnBegin_next_iff.1 hexec
    exact disciplined_reported (disciplined_txnBegin h hopen) _ _ _ _ _
  | txnEnd =>
    obtain ⟨-, hopen, rfl⟩ := txnEnd_next_iff.1 hexec
    exact disciplined_reported (disciplined_txnEnd h hopen) _ _ _ _ _
  | backlightOn =>
    obtain ⟨-, rfl⟩ := backlightOn_next_iff.1 hexec
    exact disciplined_reported (disciplined_emit_quiet h rfl id) _ _ _ _ _
  | selectRegister x =>
    obtain ⟨-, hopen, hdir, rfl⟩ := selectRegister_next_iff.1 hexec
    exact disciplined_reported (disciplined_selectRegister h hopen hdir x) _ _ _ _ _
  | idxw x =>
    obtain ⟨-, hopen, hdir, rfl⟩ := idxw_next_iff.1 hexec
    exact disciplined_reported (disciplined_selectRegister h hopen hdir x) _ _ _ _ _
  | writeDataWord d =>
    obtain ⟨-, hsel, hdir, rfl⟩ := writeDataWord_next_iff.1 hexec
    exact disciplined_reported (disciplined_writeDataWord h hsel hdir d) _ _ _ _ _
  | datw d =>
    obtain ⟨-, hsel, hdir, rfl⟩ := datw_next_iff.1 hexec
    exact disciplined_reported (disciplined_writeDataWord h hsel hdir d) _ _ _ _ _
  | readDataWord =>
    obtain ⟨-, hsel, rfl⟩ := readDataWord_next_iff.1 hexec
    rw [readDataWord_eq]
    exact disciplined_reported (disciplined_dataRead h hsel _) _ _ _ _ _
  | datr d =>
    obtain ⟨-, hsel, rfl⟩ := datr_next_iff.1 hexec
    rw [readCycle_takeDriven_eq]
    exact disciplined_reported (disciplined_dataRead h hsel d) _ _ _ _ _
  | wrPulse =>
    obtain ⟨-, hsel, hdir, hloaded, rfl⟩ := wrPulse_next_iff.1 hexec
    exact disciplined_reported (disciplined_wrPulse h hsel hdir hloaded) _ _ _ _ _
  | construct =>
    obtain ⟨-, rfl⟩ := construct_next_iff.1 hexec
    exact disciplined_reported h _ _ _ _ _
  | logicalSize =>
    obtain ⟨-, rfl⟩ := logicalSize_next_iff.1 hexec
    exact disciplined_reported h _ _ _ _ _
  | maxBottomRight =>
    obtain ⟨-, rfl⟩ := maxBottomRight_next_iff.1 hexec
    exact disciplined_reported h _ _ _ _ _
  | rotationFromId a =>
    obtain ⟨-, ⟨-, rfl⟩ | ⟨q, -, rfl⟩⟩ := rotationFromId_next_iff.1 hexec <;> exact disciplined_reported h _ _ _ _ _
  | toNative a b c d =>
    obtain ⟨-, rfl⟩ := toNative_next_iff.1 hexec
    obtain ⟨x, y, k, hq⟩ := mapPoint_spec (Point.ofWords a b) (Size.ofWords c d) s
    rw [hq]
    exact disciplined_reported h _ _ _ _ k
  | mapRect a b c d =>
    obtain ⟨-, rfl⟩ := mapRect_next_iff.1 hexec
    obtain ⟨q, k, hq⟩ := mapRect_spec (Point.ofWords a b) (Point.ofWords c d) s
    rw [hq]
    exact disciplined_reported h _ _ _ _ k
  | writeRegister x d =>
    obtain ⟨-, hfree, rfl⟩ := writeRegister_next_iff.1 hexec
    have hwrite := (Parked.mk h hfree).writeRegister x d
    rw [writeRegister_eq] at hwrite
    exact disciplined_reported hwrite.disciplined _ _ _ _ _
  | writeRegisterBurst x d n =>
    obtain ⟨-, -, hfree, rfl⟩ := writeRegisterBurst_next_iff.1 hexec
    have hburst := (Parked.mk h hfree).writeRegisterBurst x d n.toNat
    rw [writeRegisterBurst_eq] at hburst
    exact disciplined_reported hburst.disciplined _ _ _ _ _
  | readRegister x =>
    obtain ⟨-, hfree, rfl⟩ := readRegister_next_iff.1 hexec
    exact disciplined_reported ((Parked.mk h hfree).readRegister x).disciplined _ _ _ _ _
  | setRotation a =>
    obtain ⟨-, ⟨-, rfl⟩ | ⟨q, -, hfree, rfl⟩⟩ := setRotation_next_iff.1 hexec
    · exact disciplined_reported h _ _ _ _ _
    · exact disciplined_reported ((Parked.mk h hfree).applyRotation q).disciplined _ _ _ _ _
  | initialise =>
    obtain ⟨-, hopen, rfl⟩ := initialise_next_iff.1 hexec
    exact disciplined_reported (parked_initialisePanel h hopen).disciplined _ _ _ _ _
  | setWindow a b c d =>
    obtain ⟨-, -, hfree, rfl⟩ := setWindow_next_iff.1 hexec
    exact disciplined_reported ((Parked.mk h hfree).performAll _).disciplined _ _ _ _ _
  | resetWindow =>
    obtain ⟨-, hfree, rfl⟩ := resetWindow_next_iff.1 hexec
    exact disciplined_reported ((Parked.mk h hfree).performAll _).disciplined _ _ _ _ _
  | setPointer x y =>
    obtain ⟨-, hfree, rfl⟩ := setPointer_next_iff.1 hexec
    exact disciplined_reported ((Parked.mk h hfree).performAll _).disciplined _ _ _ _ _
  | drawPixel x y colour =>
    obtain ⟨-, hfree, rfl⟩ := drawPixel_next_iff.1 hexec
    exact disciplined_reported ((Parked.mk h hfree).drawPixel _ colour).disciplined _ _ _ _ _
  | fillRectangle a b c d colour =>
    obtain ⟨-, ⟨-, rfl⟩ | ⟨-, -, hfree, rfl⟩⟩ := fillRectangle_next_iff.1 hexec
    · exact disciplined_reported h _ _ _ _ _
    · exact disciplined_reported ((Parked.mk h hfree).fillRectangle _ _ colour).disciplined _ _ _ _ _

/-- Settles O56: a step is waiting, or an instruction after a word was taken off the port. -/
theorem stepKeepsBusDiscipline : Obligations.StepKeepsBusDiscipline := by
  intro s t h hstep
  obtain rfl | ⟨rest, i, -, hexec⟩ := step_next_cases hstep
  · exact h
  · exact disciplined_exec (disciplined_reported h _ _ _ rest _) hexec

end Sys2Proof.Proofs
end

section
/-! PROOF. The bus family (spec/40_parallel_bus.md): the whole-state equation, the refusal and the word of each Parallel Bus
command (R120 to R125, R127), and the bracket, over sequences and over commands (R126, R216). -/

namespace Sys2Proof.Proofs

open Sys2Proof.Machine Sys2Proof.Safety Sys2Proof.Laws

/-! ### The commands of the bus (R120 to R125, R127) -/

/-- Settles O11, by the inversion lemma of each switch; its one event sets `DIR`. -/
theorem modeSwitchesSetDirOnly : Obligations.ModeSwitchesSetDirOnly := by
  refine ⟨?_, ?_, ?_, ?_⟩
  · exact fun s hcons => setOutputMode_next_iff.2 ⟨hcons, rfl⟩
  · exact fun s hcons => setInputMode_next_iff.2 ⟨hcons, rfl⟩
  · exact decodeOfEncode .setOutputMode
  · exact decodeOfEncode .setInputMode

/-- A command whose inversion lemma asks, after construction, for what does not hold is refused. -/
theorem refuses_of_next_iff {x : Answer} {c p : Prop} {u : State} (hx : ∀ {t}, x = .next t ↔ c ∧ p ∧ t = u) (hp : ¬ p) :
    Refuses x := by
  refine refuses_iff.2 fun t hnext => ?_
  obtain ⟨-, hp', -⟩ := hx.1 hnext
  exact hp hp'

/-- Settles O12: the inversion lemma asks for output mode, and its one event loads `DOUT`. -/
theorem driveBusLoadsDout : Obligations.DriveBusLoadsDout := by
  refine ⟨?_, ?_, ?_⟩
  · exact fun value s hcons hdir => driveBus_next_iff.2 ⟨hcons, hdir, rfl⟩
  · exact fun value s _ hdir => refuses_of_next_iff driveBus_next_iff hdir
  · exact fun value => decodeOfEncode (.driveBus value)

/-- In input mode a sample reports the word it put in the trace (R123). -/
theorem exec_sampleBus_eq {s : State} (hcons : Constructed s) (hdir : s.pins.dir = .val .inp) :
    exec .sampleBus s =
      .next { s with trace := s.trace ++ [.sample (sampledValue s)], draws := s.draws + 1,
                     result := .val (.ok (.word (sampledValue s))) } :=
  sampleBus_next_iff.2 ⟨hcons, hdir, rfl⟩

/-- Settles O13: whatever the partner the word is `sampledValue`, and the unconstrained partner's is the truncated port. -/
theorem sampleBusReportsTruncatedPort : Obligations.SampleBusReportsTruncatedPort := by
  refine ⟨?_, ?_, ?_, ?_⟩
  · intro s hcons hdir hpartner raw
    rw [exec_sampleBus_eq hcons hdir, sampledValue_unconstrained hpartner]
  · exact fun s hcons hdir => ⟨sampledValue s, exec_sampleBus_eq hcons hdir⟩
  · exact fun s _ hdir => refuses_of_next_iff sampleBus_next_iff hdir
  · exact decodeOfEncode .sampleBus

/-- Settles O14: the inversion lemma asks for no open transaction, and `txnBegin_eq` is the whole effect. -/
theorem txnBeginSelectsTheChip : Obligations.TxnBeginSelectsTheChip := by
  refine ⟨?_, ?_, ?_⟩
  · exact fun s hcons hopen => txnBegin_next_iff.2 ⟨hcons, hopen, by rw [txnBegin_eq]⟩
  · exact fun s _ hopen => refuses_of_next_iff txnBegin_next_iff (by simp [hopen])
  · exact decodeOfEncode .txnBegin

/-- Settles O15: the inversion lemma asks for an open transaction, and `txnEnd_eq` is the whole effect. -/
theorem txnEndDeselectsTheChip : Obligations.TxnEndDeselectsTheChip := by
  refine ⟨?_, ?_, ?_⟩
  · exact fun s hcons hopen => txnEnd_next_iff.2 ⟨hcons, hopen, by rw [txnEnd_eq]⟩
  · exact fun s _ hclosed => refuses_of_next_iff txnEnd_next_iff (by simp [hclosed])
  · exact decodeOfEncode .txnEnd

/-- Settles O18: one event, which sets `BL`; an enabled line carries its active level by definition (R27). -/
theorem backlightOnSetsBl : Obligations.BacklightOnSetsBl := by
  refine ⟨?_, ?_, ?_⟩
  · exact fun s hcons => backlightOn_next_iff.2 ⟨hcons, rfl⟩
  · intro p active hbl
    simp only [Pins.backlightLevel, hbl]
  · exact decodeOfEncode .backlightOn

/-! ### The bracket over sequences (R126, R216) -/

/-- The bracket is its body between `TXN_BEGIN` and `TXN_END`, with the body's result. -/
theorem withTransaction_eq (body : State → Result × State) (s : State) :
    withTransaction body s = ((body (txnBegin s)).1, txnEnd (body (txnBegin s)).2) := rfl

/-- Settles O16: `TXN_END` runs on whatever the body left, and its effect is `txnEnd_eq`. -/
theorem withTransactionAlwaysDeselects : Obligations.WithTransactionAlwaysDeselects := by
  intro body s
  rw [withTransaction_eq, txnEnd_eq]
  exact ⟨rfl, rfl, rfl, rfl⟩

/-! ### The bracket over commands (R103, R126, R216) -/

/-- The bracket closes where `TXN_END` runs, and keeps the body's result (R126). -/
theorem closeTransaction_next_iff {s t : State} :
    closeTransaction s = .next t ↔ Constructed s ∧ s.txnOpen = true ∧ t = { txnEnd s with result := s.result } := by
  unfold closeTransaction
  cases hend : exec .txnEnd s with
  | next u =>
    obtain ⟨hcons, hopen, rfl⟩ := txnEnd_next_iff.1 hend
    simp [hcons, hopen, eq_comm]
  | fault f => cases f
  | refused r =>
    have hrefused : ¬ (Constructed s ∧ s.txnOpen = true) := fun ⟨hcons, hopen⟩ => by
      simp [txnEnd_next_iff.2 ⟨hcons, hopen, rfl⟩] at hend
    simp [← and_assoc, hrefused]

/-- A bracket that ends has begun, run its body to an end, and closed. -/
theorem execBracket_next_iff {body : List Instr} {s t : State} :
    execBracket body s = .next t ↔
      ∃ s1 u, exec .txnBegin s = .next s1 ∧ execAll body s1 = .next u ∧ closeTransaction u = .next t := by
  unfold execBracket
  cases hbegin : exec .txnBegin s with
  | next s1 => cases hbody : execAll body s1 <;> simp [hbody]
  | fault f => simp
  | refused r => simp

/-- Settles O17: a bracket that ends was closed by `TXN_END`, and with no body that is all that happens after
`TXN_BEGIN`. -/
theorem bracketEndsDeselected : Obligations.BracketEndsDeselected := by
  refine ⟨?_, ?_⟩
  · intro body s t h
    obtain ⟨s1, u, hbegin, hbody, hclose⟩ := execBracket_next_iff.1 h
    obtain ⟨-, -, rfl⟩ := closeTransaction_next_iff.1 hclose
    rw [txnEnd_eq]
    exact ⟨rfl, rfl, s1, u, hbegin, hbody, rfl, rfl⟩
  · intro s hcons hopen
    have hbegin := txnBegin_next_iff.2 ⟨hcons, hopen, rfl⟩
    have hclose := (closeTransaction_next_iff (s := { txnBegin s with result := .val (.ok .unit) })).2 ⟨hcons, rfl, rfl⟩
    refine ⟨_, execBracket_next_iff.2 ⟨_, _, hbegin, rfl, hclose⟩, rfl, ?_⟩
    simp [txnEnd_eq, txnBegin_eq]

end Sys2Proof.Proofs
end

section
/-! PROOF. The register family (spec/41_register_protocol.md): the whole-state equation, the refusal, the bus cycles and the
word of each command of the Register Protocol (R141 to R148), and WRITE_REGISTER made of the primitives (R145, R147). -/

namespace Sys2Proof.Proofs

open Sys2Proof.Machine Sys2Proof.Safety Sys2Proof.Laws

/-! ### The burst (R146) -/

/-- A burst is a register write with `n - 1` pulses after its 16th event (R146). -/
theorem burstTrace_eq (i d : Word) (n : Nat) :
    burstTrace i d n =
      (writeTrace i d).take 16 ++ (List.replicate (n - 1) pulseTrace).flatten ++ (writeTrace i d).drop 16 := rfl

theorem burstTrace_length (i d : Word) (n : Nat) : (burstTrace i d n).length = 18 + 3 * (n - 1) := by
  simp [burstTrace_eq, writeTrace, pulseTrace]
  omega

/-- A strobe takes a microsecond (R144). -/
theorem traceMicros_pulses (k : Nat) : traceMicros (List.replicate k pulseTrace).flatten = k := by
  induction k with
  | zero => rfl
  | succ k ih =>
    have hpulse : traceMicros pulseTrace = 1 := rfl
    rw [List.replicate_succ, List.flatten_cons, traceMicros_append, ih, hpulse, Nat.add_comm]

theorem traceMicros_burstTrace (i d : Word) (n : Nat) : traceMicros (burstTrace i d n) = 5 + (n - 1) := by
  have hfirst : traceMicros ((writeTrace i d).take 16) = 4 := rfl
  have hlast : traceMicros ((writeTrace i d).drop 16) = 1 := rfl
  rw [burstTrace_eq, traceMicros_append, traceMicros_append, traceMicros_pulses, hfirst, hlast]
  omega

/-- The levels at which a strobe writes the word on the lines: selected, in the data phase, not reading, driven (R83). -/
structure Strobing (p : Pins) (d : Word) : Prop where
  cs   : p.cs = .val .low
  rs   : p.rs = .val .high
  rd   : p.rd = .val .high
  dir  : p.dir = .val .out
  dout : p.dout = .val d

/-- A strobe is one data-write cycle of the word on the lines (R83, R144). -/
theorem Strobing.cyclesFrom_pulse {p : Pins} {d : Word} (h : Strobing p d) : cyclesFrom p pulseTrace = [.datw d] := by
  simp [pulseTrace, cyclesFrom, cycleAt, h.cs, h.rs, h.rd, h.dir, h.dout]

/-- `k` strobes are `k` data-write cycles, for a strobe leaves the levels that make the next one a cycle. -/
theorem Strobing.cyclesFrom_pulses {p : Pins} {d : Word} (h : Strobing p d) (k : Nat) :
    cyclesFrom p (List.replicate k pulseTrace).flatten = List.replicate k (.datw d) := by
  induction k generalizing p with
  | zero => rfl
  | succ k ih =>
    have hnext : Strobing (p.run pulseTrace) d := ⟨h.cs, h.rs, h.rd, h.dir, h.dout⟩
    rw [List.replicate_succ, List.flatten_cons, cyclesFrom_append, h.cyclesFrom_pulse, ih hnext, List.replicate_succ,
      List.singleton_append]

/-- A burst holds one index-write cycle, the first word's data-write cycle, and one more for every pulse. -/
theorem cyclesFrom_burstTrace {p : Pins} (h : p.dir = .val .out) (i d : Word) (k : Nat) :
    cyclesFrom p (burstTrace i d (k + 1)) = .idxw i :: List.replicate (k + 1) (.datw d) := by
  have hfirst : cyclesFrom p ((writeTrace i d).take 16) = [.idxw i, .datw d] := by
    simp [writeTrace, cyclesFrom, cycleAt, h]
  have hstrobing : Strobing (p.run ((writeTrace i d).take 16)) d := ⟨rfl, rfl, rfl, h, rfl⟩
  have hlast (q : Pins) : cyclesFrom q ((writeTrace i d).drop 16) = [] := rfl
  rw [burstTrace_eq, cyclesFrom_append, cyclesFrom_append, hfirst, hstrobing.cyclesFrom_pulses, hlast]
  simp [List.replicate_succ]

theorem exec_writeRegister_eq {s : State} (hcons : Constructed s) (hfree : BusFree s) (i d : Word) :
    exec (.writeRegister i d) s = .next (afterBus s d (writeTrace i d)) :=
  writeRegister_next_iff.2 ⟨hcons, hfree, rfl⟩

theorem exec_writeRegisterBurst_eq {s : State} (hcons : Constructed s) (hfree : BusFree s) (i d : Word) {n : Count}
    (hn : 1 ≤ n.toNat) : exec (.writeRegisterBurst i d n) s = .next (afterBus s d (burstTrace i d n.toNat)) :=
  writeRegisterBurst_next_iff.2 ⟨hcons, hn, hfree, rfl⟩

/-- Settles O25: the inversion lemma asks for a count of 1 or more on a free bus; the trace's length, time and cycles are
those of its first word and of `n - 1` pulses, so with no pulse it is the trace of WRITE_REGISTER. -/
theorem burstIsOneTransaction : Obligations.BurstIsOneTransaction := by
  refine ⟨?_, ?_, ?_, ?_, ?_⟩
  · intro index data n s hcons hfree hn
    refine ⟨exec_writeRegisterBurst_eq hcons hfree index data hn, burstTrace_length _ _ _, traceMicros_burstTrace _ _ _, ?_⟩
    obtain ⟨k, hk⟩ := Nat.exists_eq_add_of_le' hn
    rw [hk]
    exact cyclesFrom_burstTrace hfree.2 index data k
  · intro index data s hcons hfree
    have hburst : burstTrace index data (1 : Count).toNat = writeTrace index data := rfl
    rw [exec_writeRegisterBurst_eq hcons hfree index data (by decide), hburst, exec_writeRegister_eq hcons hfree]
  · intro index data s _
    refine refuses_iff.2 fun t hnext => ?_
    obtain ⟨-, hcount, -, -⟩ := writeRegisterBurst_next_iff.1 hnext
    exact absurd hcount (by decide)
  · intro index data n s _ hbusy
    refine refuses_iff.2 fun t hnext => ?_
    obtain ⟨-, -, hfree, -⟩ := writeRegisterBurst_next_iff.1 hnext
    exact hbusy hfree
  · exact fun index data n => decodeOfEncode (.writeRegisterBurst index data n)

/-! ### The primitives one by one (R126, R145, R147) -/

/-- A delay makes no cycle and moves no line, so a trace without one of its delays holds the same cycles. -/
theorem cyclesFrom_eraseIdx_delayUs {p : Pins} {es : List Event} {k : Nat} {n : Word} (h : es[k]? = some (.delayUs n)) :
    cyclesFrom p (es.eraseIdx k) = cyclesFrom p es := by
  induction es generalizing p k with
  | nil => rfl
  | cons e es ih =>
    cases k with
    | zero =>
      obtain rfl : e = .delayUs n := by simpa using h
      rfl
    | succ k =>
      rw [List.eraseIdx_cons_succ, cyclesFrom, cyclesFrom, ih (by simpa using h)]

/-- On a free bus the four primitives of a register write complete, and do what it does but for its inter-stroke delay. -/
theorem primitives_complete {s : State} (hcons : Constructed s) (hfree : BusFree s) (i d : Word) :
    ∃ s1 s2 s3, exec .txnBegin s = .next s1 ∧ exec (.selectRegister i) s1 = .next s2 ∧
      exec (.writeDataWord d) s2 = .next s3 ∧
      exec .txnEnd s3 = .next (afterBus s d ((writeTrace i d).eraseIdx 11)) := by
  obtain ⟨hopen, hdir⟩ := hfree
  have hbegin := txnBegin_next_iff.2 ⟨hcons, hopen, rfl⟩
  rw [txnBegin_eq] at hbegin
  refine ⟨_, _, _, hbegin, selectRegister_next_iff.2 ⟨hcons, rfl, hdir, rfl⟩,
    writeDataWord_next_iff.2 ⟨hcons, ⟨rfl, rfl, rfl⟩, hdir, rfl⟩, txnEnd_next_iff.2 ⟨hcons, rfl, ?_⟩⟩
  simp [selectRegister_eq, writeDataWord_eq, txnEnd_eq, afterBus, idleWith, writeTrace]

/-- Settles O26: the primitives gain the composite's trace without its twelfth event, a delay, which makes no cycle. -/
theorem primitivesRefineWriteRegister : Obligations.PrimitivesRefineWriteRegister := by
  intro index data s hcons hfree
  obtain ⟨s1, s2, s3, hbegin, hselect, hwrite, hend⟩ := primitives_complete hcons hfree index data
  refine ⟨s1, s2, s3, _, _, hbegin, hselect, hwrite, hend, exec_writeRegister_eq hcons hfree index data, rfl, rfl, ?_⟩
  rw [gained_of_append (s := s) (t := afterBus _ _ _) rfl, gained_of_append (s := s) (t := afterBus _ _ _) rfl]
  exact ⟨cyclesFrom_eraseIdx_delayUs rfl, rfl⟩

/-! ### The primitives (R141 to R144) -/

/-- Settles O19: the inversion lemma asks for an open transaction in output mode, `selectRegister_eq` is the whole effect,
and of its events the falling strobe alone makes a cycle. -/
theorem selectRegisterWritesTheIndex : Obligations.SelectRegisterWritesTheIndex := by
  refine ⟨?_, ?_, ?_, ?_⟩
  · exact fun index s hcons hopen hdir => selectRegister_next_iff.2 ⟨hcons, hopen, hdir, by rw [selectRegister_eq]⟩
  · intro index s _ hpre
    refine refuses_iff.2 fun t hnext => ?_
    obtain ⟨-, hopen, hdir, -⟩ := selectRegister_next_iff.1 hnext
    exact hpre ⟨hopen, hdir⟩
  · intro index p hcs hrd hdir
    simp [cyclesFrom, cycleAt, hcs, hrd, hdir]
  · exact fun index => decodeOfEncode (.selectRegister index)

/-- Settles O20: the inversion lemma asks for a selected register in output mode, `writeDataWord_eq` is the whole effect,
and its events after the word is driven are one strobe. -/
theorem writeDataWordStrobesTheWord : Obligations.WriteDataWordStrobesTheWord := by
  refine ⟨?_, ?_, ?_, ?_⟩
  · exact fun data s hcons hsel hdir => writeDataWord_next_iff.2 ⟨hcons, hsel, hdir, by rw [writeDataWord_eq]⟩
  · intro data s _ hpre
    refine refuses_iff.2 fun t hnext => ?_
    obtain ⟨-, hsel, hdir, -⟩ := writeDataWord_next_iff.1 hnext
    exact hpre ⟨hsel, hdir⟩
  · intro data p hcs hrs hrd hdir
    have hdriven : Strobing (p.apply (.drive data)) data := ⟨hcs, hrs, hrd, hdir, rfl⟩
    exact hdriven.cyclesFrom_pulse
  · exact fun data => decodeOfEncode (.writeDataWord data)

/-- Settles O21: the inversion lemma asks for a selected register, and `readDataWord_eq` is the whole effect, with one word
in the event and in the result. -/
theorem readDataWordSamplesWhileRdLow : Obligations.ReadDataWordSamplesWhileRdLow := by
  refine ⟨?_, ?_, ?_, ?_⟩
  · exact fun s hcons hsel => ⟨_, readDataWord_next_iff.2 ⟨hcons, hsel, by rw [readDataWord_eq]⟩⟩
  · exact fun s _ hsel => refuses_of_next_iff readDataWord_next_iff hsel
  · intro v p hcs hrs hwr
    simp [cyclesFrom, cycleAt, hcs, hrs, hwr]
  · exact decodeOfEncode .readDataWord

/-- Settles O22: the inversion lemma asks for a loaded word, `wrPulse_eq` is the whole effect, and its events are one
strobe. -/
theorem wrPulseRepeatsTheStrobe : Obligations.WrPulseRepeatsTheStrobe := by
  refine ⟨?_, ?_, ?_, ?_⟩
  · exact fun s hcons hsel hdir hloaded => wrPulse_next_iff.2 ⟨hcons, hsel, hdir, hloaded, by rw [wrPulse_eq]⟩
  · intro s _ hpre
    refine refuses_iff.2 fun t hnext => ?_
    obtain ⟨-, hsel, hdir, hloaded, -⟩ := wrPulse_next_iff.1 hnext
    exact hpre ⟨hsel, hdir, hloaded⟩
  · exact fun d p hcs hrs hrd hdir hdout => Strobing.cyclesFrom_pulse ⟨hcs, hrs, hrd, hdir, hdout⟩
  · exact decodeOfEncode .wrPulse

/-! ### The composites (R147, R148) -/

/-- Settles O23: the inversion lemma asks for a free bus, and gives the rule's trace. -/
theorem writeRegisterIsOneTransaction : Obligations.WriteRegisterIsOneTransaction := by
  refine ⟨?_, ?_, ?_⟩
  · exact fun index data s hcons hfree =>
      ⟨exec_writeRegister_eq hcons hfree index data, cyclesFrom_writeTrace hfree.2 index data, rfl⟩
  · exact fun index data s _ hbusy => refuses_of_next_iff writeRegister_next_iff hbusy
  · exact fun index data => decodeOfEncode (.writeRegister index data)

/-- Settles O24: the inversion lemma asks for a free bus, and `readRegister_spec` gives the rule's trace with one word; the
mode it ends in is the one it began in. -/
theorem readRegisterIsOneTransaction : Obligations.ReadRegisterIsOneTransaction := by
  refine ⟨?_, ?_, ?_⟩
  · intro index s hcons hfree
    obtain ⟨v, hread⟩ := readRegister_spec index s
    refine ⟨v, readRegister_next_iff.2 ⟨hcons, hfree, ?_⟩, cyclesFrom_readTrace hfree.2 index v, rfl⟩
    have hpins : ({ idleWith s.pins index with dir := .val .out } : Pins) = idleWith s.pins index := by rw [← hfree.2]; rfl
    rw [hread, hpins]
    rfl
  · exact fun index s _ hbusy => refuses_of_next_iff readRegister_next_iff hbusy
  · exact fun index => decodeOfEncode (.readRegister index)

end Sys2Proof.Proofs
end

section
/-! PROOF. The mapper family (spec/42_rotation_mapper.md): rotations by number and the entry-mode write (R161 to R163), the
logical size (R164, R165), the coordinate transform as a bijection and through its commands (R166, R168, R169), what is left
open outside the logical rectangle (R171), and that the queries touch nothing but RESULT. -/

namespace Sys2Proof.Proofs

open Sys2Proof.Machine Sys2Proof.Safety Sys2Proof.Laws

/-! ### Rotations by number (R161, R214) -/

theorem ofId_eq_none {n : Nat} (h : 4 ≤ n) : Rotation.ofId n = none := by
  obtain ⟨k, rfl⟩ := Nat.exists_eq_add_of_le' h
  rfl

theorem ofId_ne_none {n : Nat} (h : n < 4) : Rotation.ofId n ≠ none := by
  interval_cases n <;> nofun

theorem exec_rotationFromId_eq {s : State} (hcons : Constructed s) {id : Word} {r : Rotation}
    (hid : Rotation.ofId id.toNat = some r) :
    exec (.rotationFromId id) s = .next { s with result := .val (.ok (.rotation r)) } :=
  rotationFromId_next_iff.2 ⟨hcons, .inr ⟨r, hid, rfl⟩⟩

/-- Settles O28: the four numbers are looked up, and the lookup has no row for any other. -/
theorem rotationFromIdIsNotReduced : Obligations.RotationFromIdIsNotReduced := by
  refine ⟨?_, ?_, ?_⟩
  · exact fun s hcons => ⟨exec_rotationFromId_eq hcons rfl, exec_rotationFromId_eq hcons rfl,
      exec_rotationFromId_eq hcons rfl, exec_rotationFromId_eq hcons rfl⟩
  · exact fun id s hcons hid => rotationFromId_next_iff.2 ⟨hcons, .inl ⟨ofId_eq_none hid, rfl⟩⟩
  · exact fun id => decodeOfEncode (.rotationFromId id)

/-- A legal rotation is stored, then its entry-mode word written in one transaction (R162, R163). -/
theorem exec_setRotation_eq {s : State} (hinit : s.lifecycle = .initialised) (hfree : BusFree s) {a : Word} {r : Rotation}
    (hid : Rotation.ofId a.toNat = some r) :
    exec (.setRotation a) s =
      .next (afterBus { s with rot := r } (entryModeWord s.cfg.em r)
        (writeTrace s.cfg.reg.entryMode (entryModeWord s.cfg.em r))) :=
  setRotation_next_iff.2 ⟨hinit, .inr ⟨r, hid, hfree, by rw [applyRotation_eq]; rfl⟩⟩

/-- Settles O29: a number below 4 needs a free bus, one of 4 or more needs none, and both need a completed INITIALIZE. -/
theorem setRotationWritesEntryMode : Obligations.SetRotationWritesEntryMode := by
  refine ⟨?_, ?_, ?_, ?_, ?_, ?_⟩
  · exact fun s hinit hfree => ⟨exec_setRotation_eq hinit hfree rfl, exec_setRotation_eq hinit hfree rfl,
      exec_setRotation_eq hinit hfree rfl, exec_setRotation_eq hinit hfree rfl⟩
  · exact fun a s hinit ha => setRotation_next_iff.2 ⟨hinit, .inl ⟨ofId_eq_none ha, rfl⟩⟩
  · intro a s ha hbusy
    refine refuses_iff.2 fun t hnext => ?_
    obtain ⟨-, ⟨hid, -⟩ | ⟨r, -, hfree, -⟩⟩ := setRotation_next_iff.1 hnext
    · exact ofId_ne_none ha hid
    · exact hbusy hfree
  · intro a s hinit
    refine refuses_iff.2 fun t hnext => ?_
    obtain ⟨hinit', -⟩ := setRotation_next_iff.1 hnext
    exact hinit hinit'
  · exact fun a => decodeOfEncode (.setRotation a)
  · exact fun a => rfl

/-! ### The logical size (R164, R165) -/

theorem logicalSize_upright (c : Config) {r : Rotation} (h : r = .r0 ∨ r = .r180) :
    logicalSize c r = { width := 240, height := 320 } := by
  obtain rfl | rfl := h <;> rw [logicalSize_eq]

theorem logicalSize_turned (c : Config) {r : Rotation} (h : r = .r90 ∨ r = .r270) :
    logicalSize c r = { width := 320, height := 240 } := by
  obtain rfl | rfl := h <;> rw [logicalSize_eq]

/-- Settles O30: upright and turned sizes, reported as words. -/
theorem logicalSizeFollowsRotation : Obligations.LogicalSizeFollowsRotation := by
  refine ⟨?_, ?_, ?_, rfl⟩
  · exact fun s hcons hrot => logicalSize_next_iff.2 ⟨hcons, by rw [logicalSize_upright s.cfg hrot]; rfl⟩
  · exact fun s hcons hrot => logicalSize_next_iff.2 ⟨hcons, by rw [logicalSize_turned s.cfg hrot]; rfl⟩
  · exact decodeOfEncode .logicalSize

/-- Settles O31: upright and turned sizes, less one on each axis. -/
theorem maxBottomRightFollowsRotation : Obligations.MaxBottomRightFollowsRotation := by
  refine ⟨?_, ?_, ?_, rfl⟩
  · exact fun s hcons hrot => maxBottomRight_next_iff.2 ⟨hcons, by rw [logicalSize_upright s.cfg hrot]; rfl⟩
  · exact fun s hcons hrot => maxBottomRight_next_iff.2 ⟨hcons, by rw [logicalSize_turned s.cfg hrot]; rfl⟩
  · exact decodeOfEncode .maxBottomRight

/-! ### The transform (R166, R169, R170) -/

theorem inv_eq (r : Rotation) :
    Rotation.inv r = match r with
      | .r0 => .r0
      | .r90 => .r270
      | .r180 => .r180
      | .r270 => .r90 := by
  cases r <;> rfl

theorem inv_inv (r : Rotation) : Rotation.inv (Rotation.inv r) = r := by
  cases r <;> rfl

/-- Where no subtraction goes below zero the transform is the table of R166, computed in the integers. -/
theorem toNativePoint_int {r : Rotation} {p : Point} {s : Size} (h : Point.noUnderflow r p s = true) :
    (r = .r0 → ((toNativePoint r p s).x : Int) = p.x ∧ ((toNativePoint r p s).y : Int) = p.y) ∧
    (r = .r90 → ((toNativePoint r p s).x : Int) = s.width - 1 - p.y ∧ ((toNativePoint r p s).y : Int) = p.x) ∧
    (r = .r180 →
      ((toNativePoint r p s).x : Int) = s.width - 1 - p.x ∧ ((toNativePoint r p s).y : Int) = s.height - 1 - p.y) ∧
    (r = .r270 → ((toNativePoint r p s).x : Int) = p.y ∧ ((toNativePoint r p s).y : Int) = s.height - 1 - p.x) := by
  cases r <;>
    simp only [Point.noUnderflow, decide_eq_true_eq, toNativePoint, reduceCtorEq, forall_const, false_implies, true_and,
      and_true] at h ⊢ <;>
    omega

/-- Points of the logical rectangle have native images (R169). -/
theorem toNativePoint_within (c : Config) {r : Rotation} {p : Point} (h : p.within (logicalSize c r)) :
    (toNativePoint r p (nativeSize c)).within (nativeSize c) := by
  cases r <;> simp only [Point.within, logicalSize_eq, nativeSize_eq, toNativePoint] at h ⊢ <;> omega

/-- Native points come back into the logical rectangle under the inverse rotation (R169). -/
theorem toNativePoint_inv_within (c : Config) (r : Rotation) {q : Point} (h : q.within (nativeSize c)) :
    (toNativePoint (Rotation.inv r) q (logicalSize c r)).within (logicalSize c r) := by
  cases r <;>
    simp only [Point.within, logicalSize_eq, nativeSize_eq, toNativePoint, inv_eq] at h ⊢ <;>
    omega

/-- The round trip from the logical rectangle (R169). -/
theorem toNativePoint_inv_toNativePoint (c : Config) {r : Rotation} {p : Point} (h : p.within (logicalSize c r)) :
    toNativePoint (Rotation.inv r) (toNativePoint r p (nativeSize c)) (logicalSize c r) = p := by
  obtain ⟨x, y⟩ := p
  cases r <;>
    simp only [Point.within, logicalSize_eq, nativeSize_eq, toNativePoint, inv_eq, Point.mk.injEq,
      true_and, and_true] at h ⊢ <;>
    omega

/-- The round trip from the native rectangle (R169). -/
theorem toNativePoint_toNativePoint_inv (c : Config) (r : Rotation) {q : Point} (h : q.within (nativeSize c)) :
    toNativePoint r (toNativePoint (Rotation.inv r) q (logicalSize c r)) (nativeSize c) = q := by
  obtain ⟨x, y⟩ := q
  cases r <;>
    simp only [Point.within, logicalSize_eq, nativeSize_eq, toNativePoint, inv_eq, Point.mk.injEq,
      true_and, and_true] at h ⊢ <;>
    omega

/-- Settles O36: the transform under the inverse rotation and the logical size is its two-sided inverse. -/
theorem toNativeIsABijection : Obligations.ToNativeIsABijection := by
  intro c r
  refine ⟨fun p hp => toNativePoint_within c hp, ?_, ?_⟩
  · intro p q hp hq heq
    rw [← toNativePoint_inv_toNativePoint c hp, heq, toNativePoint_inv_toNativePoint c hq]
  · exact fun q hq => ⟨_, toNativePoint_inv_within c r hq, toNativePoint_toNativePoint_inv c r hq⟩

/-! ### TO_NATIVE as a command (R166, R169) -/

theorem toNat_coordWord {n : Nat} (h : n < 2 ^ 16) : (coordWord n).toNat = n := by
  rw [coordWord, BitVec.toNat_ofNat, Nat.mod_eq_of_lt h]

theorem coordWord_toNat (w : Word) : coordWord w.toNat = w := BitVec.ofNat_toNat ..

theorem ofWords_native (c : Config) : Size.ofWords 240 320 = nativeSize c := by
  rw [nativeSize_eq]
  rfl

theorem native_lt {c : Config} {q : Point} (h : q.within (nativeSize c)) : q.x < 2 ^ 16 ∧ q.y < 2 ^ 16 := by
  simp only [Point.within, nativeSize_eq] at h
  omega

/-- A native point fits in two words. -/
theorem ofWords_coordWord {c : Config} {q : Point} (h : q.within (nativeSize c)) :
    Point.ofWords (coordWord q.x) (coordWord q.y) = q := by
  obtain ⟨hx, hy⟩ := native_lt h
  rw [Point.ofWords, toNat_coordWord hx, toNat_coordWord hy]

/-- So does a logical size. -/
theorem sizeOfWords_coordWord (c : Config) (r : Rotation) :
    Size.ofWords (coordWord (logicalSize c r).width) (coordWord (logicalSize c r).height) = logicalSize c r := by
  cases r <;> rw [logicalSize_eq] <;> rfl

/-- The transform of operands gives coordinates that fit in words. -/
theorem toNativePoint_ofWords_lt (r : Rotation) (px py width height : Word) :
    (toNativePoint r (Point.ofWords px py) (Size.ofWords width height)).x < 2 ^ 16 ∧
    (toNativePoint r (Point.ofWords px py) (Size.ofWords width height)).y < 2 ^ 16 := by
  have hpx := px.isLt
  have hpy := py.isLt
  have hwidth := width.isLt
  have hheight := height.isLt
  cases r <;> simp only [toNativePoint, Point.ofWords, Size.ofWords] <;> omega

theorem exec_toNative_eq {s : State} (hcons : Constructed s) {px py width height : Word}
    (h : Point.mapped s.cfg s.rot (Point.ofWords px py) (Size.ofWords width height)) :
    let q := toNativePoint s.rot (Point.ofWords px py) (Size.ofWords width height)
    exec (.toNative px py width height) s =
      .next { s with result := .val (.ok (.point (coordWord q.x) (coordWord q.y))) } :=
  toNative_next_iff.2 ⟨hcons, by rw [mapPoint_of_mapped h]⟩

theorem mapped_of_within {c : Config} {r : Rotation} {p : Point} (h : p.within (logicalSize c r)) :
    Point.mapped c r p (Size.ofWords 240 320) := by
  rw [ofWords_native c]
  exact (mapped_native_iff c r p).2 h

theorem exec_toNative_native_eq {s : State} (hcons : Constructed s) {px py : Word}
    (h : (Point.ofWords px py).within (logicalSize s.cfg s.rot)) :
    let q := toNativePoint s.rot (Point.ofWords px py) (nativeSize s.cfg)
    exec (.toNative px py 240 320) s = .next { s with result := .val (.ok (.point (coordWord q.x) (coordWord q.y))) } := by
  rw [← ofWords_native]
  exact exec_toNative_eq hcons (mapped_of_within h)

/-- Settles O33: the mapped coordinates fit in words, and are the integers of the table. -/
theorem toNativeForAnySize : Obligations.ToNativeForAnySize := by
  intro px py width height s hcons hmapped
  have ⟨hnonneg, _⟩ := hmapped
  obtain ⟨hx, hy⟩ := toNativePoint_ofWords_lt s.rot px py width height
  refine ⟨_, _, exec_toNative_eq hcons hmapped, ?_⟩
  rw [toNat_coordWord hx, toNat_coordWord hy]
  exact toNativePoint_int hnonneg

/-- Settles O32: O33 with the native size, for which the stated points are those of the logical rectangle;
the table's 239 and 319 are its width and height less one. -/
theorem toNativeOnTheScreen : Obligations.ToNativeOnTheScreen := by
  intro px py s hcons hp
  obtain ⟨x, y, hexec, htable⟩ := toNativeForAnySize px py 240 320 s hcons (mapped_of_within hp)
  exact ⟨x, y, hexec, htable⟩

/-- The image of a logical point is on the way back of the round trip (R169). -/
theorem mapped_wayBack (c : Config) (r : Rotation) {q : Point} (h : q.within (nativeSize c)) :
    Point.mapped c (Rotation.inv r) q (logicalSize c r) := by
  refine ⟨?_, .inr ⟨by rw [inv_inv], h⟩⟩
  cases r <;>
    simp only [Point.noUnderflow, Point.within, logicalSize_eq, nativeSize_eq, inv_eq, decide_eq_true_eq] at h ⊢ <;>
    omega

/-- Settles O37: the native image fits in words and is on the way back, where the transform undoes the first. -/
theorem toNativeRoundTrip : Obligations.ToNativeRoundTrip := by
  intro px py s hcons hp
  have hq := toNativePoint_within s.cfg hp
  refine ⟨_, _, exec_toNative_native_eq hcons hp, ?_⟩
  have hback := mapped_wayBack s.cfg s.rot hq
  rw [← ofWords_coordWord hq, ← sizeOfWords_coordWord] at hback
  have hexec := exec_toNative_eq (s := { s with rot := Rotation.inv s.rot }) hcons hback
  simp only [ofWords_coordWord hq, sizeOfWords_coordWord, toNativePoint_inv_toNativePoint s.cfg hp] at hexec
  rw [hexec]
  simp only [Point.ofWords, coordWord_toNat]

/-! ### MAP_RECT (R168) -/

theorem exec_mapRect_eq {s : State} (hcons : Constructed s) {tlx tly brx bry : Word}
    (h : cornersWithin s.cfg s.rot (Point.ofWords tlx tly) (Point.ofWords brx bry)) :
    let q := (mapRectangle s.cfg s.rot (Point.ofWords tlx tly) (Point.ofWords brx bry)).words
    exec (.mapRect tlx tly brx bry) s = .next { s with result := .val (.ok (.rect q.xs q.ys q.xe q.ye)) } :=
  mapRect_next_iff.2 ⟨hcons, by rw [mapRect_of_within h]⟩

/-- Settles O34: the corners' images are native points, so a minimum or maximum of them fits in a word
too. -/
theorem mapRectOrdersMappedCorners : Obligations.MapRectOrdersMappedCorners := by
  intro tlx tly brx bry s hcons hcorners
  obtain ⟨htl, hbr⟩ := hcorners
  refine ⟨_, _, _, _, _, _, _, _, exec_toNative_native_eq hcons htl, exec_toNative_native_eq hcons hbr,
    exec_mapRect_eq hcons ⟨htl, hbr⟩, ?_⟩
  obtain ⟨hax, hay⟩ := native_lt (toNativePoint_within s.cfg htl)
  obtain ⟨hbx, hby⟩ := native_lt (toNativePoint_within s.cfg hbr)
  simp only [mapRectangle, Rect.words, toNat_coordWord, hax, hay, hbx, hby, min_lt_of_left_lt, max_lt, and_self]

/-! ### Outside the logical rectangle (R171) -/

/-- Whatever the point and the size, TO_NATIVE ends Ok with some point. -/
theorem exec_toNative_spec {s : State} (hcons : Constructed s) (px py width height : Word) :
    ∃ (x y : Word) (k : Nat),
      exec (.toNative px py width height) s = .next { s with result := .val (.ok (.point x y)), draws := k } := by
  obtain ⟨x, y, k, hq⟩ := mapPoint_spec (Point.ofWords px py) (Size.ofWords width height) s
  exact ⟨x, y, k, toNative_next_iff.2 ⟨hcons, by rw [hq]⟩⟩

/-- Whatever the corners, MAP_RECT ends Ok with some rectangle. -/
theorem exec_mapRect_spec {s : State} (hcons : Constructed s) (tlx tly brx bry : Word) :
    ∃ (xs ys xe ye : Word) (k : Nat),
      exec (.mapRect tlx tly brx bry) s = .next { s with result := .val (.ok (.rect xs ys xe ye)), draws := k } := by
  obtain ⟨q, k, hq⟩ := mapRect_spec (Point.ofWords tlx tly) (Point.ofWords brx bry) s
  exact ⟨q.xs, q.ys, q.xe, q.ye, k, mapRect_next_iff.2 ⟨hcons, by rw [hq]⟩⟩

/-- Settles O35: the two commands end Ok wherever the operands lie, so also outside. -/
theorem mapperOutsideStillCompletes : Obligations.MapperOutsideStillCompletes :=
  ⟨fun px py _ hcons _ => exec_toNative_spec hcons px py 240 320,
    fun px py width height _ hcons _ => exec_toNative_spec hcons px py width height,
    fun tlx tly brx bry _ hcons _ => exec_mapRect_spec hcons tlx tly brx bry⟩

/-- Whatever the point, DRAW_PIXEL makes the two pointer writes and the colour write (R187). -/
theorem exec_drawPixel_spec {s : State} (hinit : s.lifecycle = .initialised) (hfree : BusFree s) (x y colour : Word) :
    ∃ (a b : Word) (k : Nat),
      exec (.drawPixel x y colour) s =
        .next { afterBus s colour (writesTrace
          [(s.cfg.reg.ramAddrH, a), (s.cfg.reg.ramAddrV, b), (s.cfg.reg.gram, colour)]) with draws := k } := by
  obtain ⟨a, b, k, hdraw⟩ := drawPixel_spec (Point.ofWords x y) colour s
  have hwrites := performAll_writes [(s.cfg.reg.ramAddrH, a), (s.cfg.reg.ramAddrV, b)] (s.cfg.reg.gram, colour)
    { s with draws := k }
  refine ⟨a, b, k, drawPixel_next_iff.2 ⟨hinit, hfree, ?_⟩⟩
  rw [hdraw]
  exact congrArg (fun t : State => { t with result := .val (.ok .unit) }) hwrites.symm

/-- Whatever the corners, a fill is a window, one burst of the fill count, and the full window (R188). -/
theorem fillRectangle_spec (tl br : Point) (colour : Word) (s : State) :
    ∃ (xs ys xe ye a b : Word) (k : Nat),
      { fillRectangle tl br colour s with result := .val (.ok .unit) } =
        { afterBus s (fullWindowLast s.cfg)
          (writesTrace (windowWrites s.cfg xs ys xe ye a b) ++
            burstTrace s.cfg.reg.gram colour (fillCount s.cfg (br.x - tl.x + 1) (br.y - tl.y + 1)) ++
            writesTrace (fullWindowWrites s.cfg)) with draws := k } := by
  obtain ⟨xs, ys, xe, ye, a, b, k, hfill⟩ := fillWindow_spec tl br s
  refine ⟨xs, ys, xe, ye, a, b, k, ?_⟩
  simp only [fillRectangle, hfill, writeRegisterBurst_eq, resetWindow_eq, idleWith_idleWith, afterBus, List.append_assoc]

/-- Settles O46: both commands make the same accesses wherever the operands lie, so also outside. -/
theorem drawingOutsideStillCompletes : Obligations.DrawingOutsideStillCompletes := by
  refine ⟨fun x y colour s hinit hfree _ => exec_drawPixel_spec hinit hfree x y colour, ?_⟩
  intro tlx tly brx bry colour s hinit hfree hx hy _
  obtain ⟨xs, ys, xe, ye, a, b, k, hfill⟩ := fillRectangle_spec (Point.ofWords tlx tly) (Point.ofWords brx bry) colour s
  exact ⟨xs, ys, xe, ye, a, b, k, fillRectangle_next_iff.2 ⟨hinit, .inr ⟨hx, hy, hfree, hfill.symm⟩⟩⟩

/-! ### The queries (R161, R164 to R168, R192) -/

/-- Settles O51, by the inversion lemma of each query; the two maps at most move the counter of free values. -/
theorem queriesTouchNothingButResult : Obligations.QueriesTouchNothingButResult := by
  intro i s t h hquery
  obtain rfl | rfl | ⟨a, rfl⟩ | ⟨a, b, c, d, rfl⟩ | ⟨a, b, c, d, rfl⟩ := hquery
  · obtain ⟨-, rfl⟩ := logicalSize_next_iff.1 h
    rfl
  · obtain ⟨-, rfl⟩ := maxBottomRight_next_iff.1 h
    rfl
  · obtain ⟨-, ⟨-, rfl⟩ | ⟨r, -, rfl⟩⟩ := rotationFromId_next_iff.1 h <;> rfl
  · obtain ⟨hcons, -⟩ := toNative_next_iff.1 h
    obtain ⟨x, y, k, hexec⟩ := exec_toNative_spec hcons a b c d
    cases hexec.symm.trans h
    rfl
  · obtain ⟨hcons, -⟩ := mapRect_next_iff.1 h
    obtain ⟨xs, ys, xe, ye, k, hexec⟩ := exec_mapRect_spec hcons a b c d
    cases hexec.symm.trans h
    rfl

end Sys2Proof.Proofs
end

section
/-! PROOF. The sequencer family (spec/43_display_sequencer.md): INITIALIZE as a list of accesses, its events and what they
hold (R182, R183); construction, the window and the pointer (R181, R184 to R186); a pixel and a fill (R187 to R189, R193). -/

namespace Sys2Proof.Proofs

open Sys2Proof.Machine Sys2Proof.Safety Sys2Proof.Laws

/-! ### Accesses and their events (R147, R148, R183) -/

/-- The events of an access, `v` being the word a read samples. -/
def accessEvents (v : Word) : Access → List Event
  | .write i d => writeTrace i d
  | .read i => readTrace i v
  | .waitMs n => [.delayMs n]

/-- The events of accesses in order, every read sampling `v`. -/
def accessesEvents (v : Word) (as : List Access) : List Event := as.flatMap (accessEvents v)

/-- The access samples the bus. -/
def accessSamples : Access → Bool
  | .write _ _ => false
  | .read _ => true
  | .waitMs _ => false

theorem accessesEvents_cons (v : Word) (a : Access) (as : List Access) :
    accessesEvents v (a :: as) = accessEvents v a ++ accessesEvents v as := List.flatMap_cons

theorem accessesEvents_append (v : Word) (as bs : List Access) :
    accessesEvents v (as ++ bs) = accessesEvents v as ++ accessesEvents v bs := List.flatMap_append

theorem accessesEvents_writes (v : Word) (ws : List (Word × Word)) :
    accessesEvents v (writeAccesses ws) = writesTrace ws := List.flatMap_map ..

/-- The state after transactions and waits with the given events: the last transaction clears the bookkeeping (R125). -/
def afterTransactions (es : List Event) (s : State) : State :=
  { emit es s with txnOpen := false, txnSelected := false, txnLoaded := false }

theorem afterTransactions_trace (es : List Event) (s : State) : (afterTransactions es s).trace = s.trace ++ es := rfl

theorem emit_afterTransactions (es fs : List Event) (s : State) :
    emit fs (afterTransactions es s) = afterTransactions (es ++ fs) s := by
  simp only [afterTransactions, emit, run_append, List.append_assoc]

theorem writeRegister_eq_afterTransactions (i d : Word) (s : State) :
    (writeRegister i d s).2 = afterTransactions (writeTrace i d) s := by
  rw [writeRegister_eq]
  rfl

/-- A transaction after others is its events after theirs. -/
theorem afterTransactions_afterTransactions (es fs : List Event) (s : State) :
    afterTransactions fs (afterTransactions es s) = afterTransactions (es ++ fs) s := by
  rw [afterTransactions, emit_afterTransactions]
  rfl

/-- Setting the rotation is one more transaction (R163). -/
theorem applyRotation_afterTransactions (r : Rotation) (es : List Event) (s : State) :
    applyRotation r (afterTransactions es s) =
      afterTransactions (es ++ writeTrace s.cfg.reg.entryMode (entryModeWord s.cfg.em r)) { s with rot := r } := by
  rw [← afterTransactions_afterTransactions, applyRotation, writeRegister_eq_afterTransactions]
  rfl

/-- After transactions a write or a wait is its events; the word only fills the place of a read's. -/
theorem perform_afterTransactions {a : Access} (ha : accessSamples a = false) (v : Word) (es : List Event) (s : State) :
    perform (afterTransactions es s) a = afterTransactions (es ++ accessEvents v a) s := by
  cases a with
  | write i d => exact (writeRegister_eq_afterTransactions i d _).trans (afterTransactions_afterTransactions ..)
  | read i => cases ha
  | waitMs n => exact emit_afterTransactions ..

theorem performAll_afterTransactions {as : List Access} (has : ∀ a ∈ as, accessSamples a = false) (v : Word)
    (es : List Event) (s : State) :
    performAll as (afterTransactions es s) = afterTransactions (es ++ accessesEvents v as) s := by
  induction as generalizing es with
  | nil => rw [performAll_nil, accessesEvents, List.flatMap_nil, List.append_nil]
  | cons a as ih =>
    obtain ⟨ha, has⟩ := List.forall_mem_cons.1 has
    rw [performAll_cons, perform_afterTransactions ha v, ih has, accessesEvents_cons, List.append_assoc]

theorem writeAccesses_sample_nothing (ws : List (Word × Word)) : ∀ a ∈ writeAccesses ws, accessSamples a = false :=
  List.forall_mem_map.2 fun _ _ => rfl

theorem performAll_writes_afterTransactions (ws : List (Word × Word)) (es : List Event) (s : State) :
    performAll (writeAccesses ws) (afterTransactions es s) = afterTransactions (es ++ writesTrace ws) s := by
  rw [performAll_afterTransactions (writeAccesses_sample_nothing ws) 0, accessesEvents_writes]

/-- A read is its events, for some word, and a draw (R148). -/
theorem readRegister_spec_afterTransactions (i : Word) (es : List Event) (s : State) :
    ∃ v, (readRegister i (emit es s)).2 = afterTransactions (es ++ readTrace i v) { s with draws := s.draws + 1 } := by
  obtain ⟨v, hread⟩ := readRegister_spec i (emit es s)
  refine ⟨v, ?_⟩
  rw [hread, afterTransactions, ← emit_emit]
  rfl

/-! ### The accesses of INITIALIZE (R183) -/

/-- The events of steps 1 and 2. -/
def litEvents : List Event := [.pin .bl .high, .dir .out]

/-- Steps 5 to 29: the accesses after the identification read. -/
def poweringAccesses (c : Config) : List Access :=
  writeAccesses [(c.reg.oscStart, 1)] ++ [Access.waitMs 50] ++
  writeAccesses (driverWrites c ++ lowPowerWrites c) ++ [Access.waitMs 200] ++
  writeAccesses [(c.reg.powerControl1, c.init.pwr1Op), (c.reg.powerControl2, c.init.pwr2Op)] ++ [Access.waitMs 50] ++
  writeAccesses [(c.reg.powerControl3, c.init.pwr3Op)] ++ [Access.waitMs 50] ++
  writeAccesses [(c.reg.powerControl4, c.init.pwr4Op), (c.reg.powerControl7, c.init.pwr7Op)] ++ [Access.waitMs 50] ++
  writeAccesses (gammaWrites c)

/-- Steps 3 to 29, with the read in the open (R183). -/
theorem initHead_eq (c : Config) : initHead c = .waitMs 130 :: .read c.reg.id :: poweringAccesses c := by
  simp [initHead, poweringAccesses, driverWrites, lowPowerWrites, gammaAccesses_eq]

/-- The identification read is the only access of steps 3 to 29 that samples. -/
theorem poweringAccesses_sample_nothing (c : Config) : ∀ a ∈ poweringAccesses c, accessSamples a = false := by
  simp only [poweringAccesses, List.forall_mem_append, List.forall_mem_map]
  simp [accessSamples]

/-- Steps 30 to 34: the register writes after the gamma writes. -/
def turningWrites (c : Config) : List (Word × Word) :=
  (c.reg.entryMode, entryModeWord c.em .r0) :: fullWindowWrites c ++ tailWrites c

/-- Steps 3 to 34. -/
def panelAccesses (c : Config) : List Access :=
  .waitMs 130 :: .read c.reg.id :: poweringAccesses c ++ writeAccesses (turningWrites c)

/-- The trace of R183 is the events of steps 1 and 2, then those of the accesses. -/
theorem initialiseTrace_eq (c : Config) (id : Word) :
    initialiseTrace c id = litEvents ++ accessesEvents id (panelAccesses c) := by
  have hcons (w : Word × Word) (ws : List (Word × Word)) :
      writesTrace (w :: ws) = writeTrace w.1 w.2 ++ writesTrace ws := rfl
  have hnil : writesTrace [] = [] := rfl
  -- `delta`: the equation lemma of so long a list of events is slow to make
  delta initialiseTrace
  simp only [litEvents, panelAccesses, poweringAccesses, turningWrites, tailWrites, entryModeWord, accessesEvents_cons,
    accessesEvents_append, accessesEvents_writes, accessEvents, writesTrace_append, hcons, hnil, fixed_dc1On,
    List.append_assoc, List.cons_append, List.nil_append, List.append_nil]

/-- Up to the gamma writes: the one read gives some word, and what follows it is transactions and waits. -/
theorem panelPowered_spec (s : State) :
    ∃ id, panelPowered s =
      afterTransactions (litEvents ++ accessesEvents id (initHead s.cfg)) { s with draws := s.draws + 1 } := by
  have hcfg : (panelLit s).cfg = s.cfg := rfl
  have hsettled : perform (panelLit s) (.waitMs 130) = emit (litEvents ++ [.delayMs 130]) s := by
    simp [perform, panelLit, litEvents, backlightOn, setOutputMode, delayMs, emit_emit]
  obtain ⟨id, hread⟩ := readRegister_spec_afterTransactions s.cfg.reg.id (litEvents ++ [.delayMs 130]) s
  refine ⟨id, ?_⟩
  rw [panelPowered, hcfg, initHead_eq, performAll_cons, performAll_cons, hsettled, perform, hread,
    performAll_afterTransactions (poweringAccesses_sample_nothing _) id, accessesEvents_cons, accessesEvents_cons]
  simp only [accessEvents, List.append_assoc]

theorem resetWindow_eq_performAll (s : State) : resetWindow s = performAll (writeAccesses (fullWindowWrites s.cfg)) s := by
  rw [resetWindow_eq, fullWindowWrites, ← windowAccesses_eq, performAll_window]
  rfl

/-- `INITIALIZE` is the trace of R183, for some identification word, the rotation and a draw. -/
theorem initialisePanel_spec (s : State) :
    ∃ id, initialisePanel s =
      afterTransactions (initialiseTrace s.cfg id) { s with rot := .r0, draws := s.draws + 1 } := by
  obtain ⟨id, hid⟩ := panelPowered_spec s
  refine ⟨id, ?_⟩
  rw [initialisePanel_eq, resetWindow_eq_performAll, panelTurned_cfg, panelTurned, hid, applyRotation_afterTransactions,
    performAll_writes_afterTransactions, performAll_writes_afterTransactions, initialiseTrace_eq, initHead_eq]
  simp only [panelAccesses, turningWrites, accessesEvents_append, accessesEvents_writes, writesTrace_append, List.append_assoc]
  rfl

/-- The idle levels and a word in `DOUT` are all the latches. -/
theorem pins_eq_of_idle {p : Pins} {d : Word} (hidle : Idle p) (hdout : p.dout = .val d) (q : Pins) :
    p = { idleWith q d with bl := .val .high, dir := .val .out } := by
  obtain ⟨hcs, hrs, hwr, hrd, hdir, hbl⟩ := hidle
  cases p
  simp_all [idleWith]

theorem performAll_writes_dout (ws : List (Word × Word)) (w : Word × Word) (s : State) :
    (performAll (writeAccesses (ws ++ [w])) s).pins.dout = .val w.2 := by
  rw [performAll_writes]
  rfl

/-- `INITIALIZE` ends with the idle levels and the display control's word in `DOUT`, from any levels (R183). -/
theorem initialisePanel_pins (s : State) :
    (initialisePanel s).pins = { idleWith s.pins 0x0133 with bl := .val .high, dir := .val .out } := by
  have hidle : Idle (initialisePanel s).pins := (BusRun.initialiseTail s).idle (idle_panelTurned s)
  refine pins_eq_of_idle hidle ?_ s.pins
  rw [initialisePanel_eq, tailWrites, ← List.append_assoc, performAll_writes_dout, fixed_dc1On]

/-- Settles O39: `initialisePanel_spec` gives the trace, and the last write the levels. -/
theorem initialisePerformsItsSteps : Obligations.InitializePerformsItsSteps := by
  refine ⟨?_, ?_, ?_⟩
  · intro s hcons hopen
    obtain ⟨id, hpanel⟩ := initialisePanel_spec s
    refine ⟨id, initialise_next_iff.2 ⟨hcons, hopen, ?_⟩⟩
    rw [← initialisePanel_pins s, hpanel]
    simp only [afterTransactions, emit]
  · exact fun s _ hopen => refuses_of_next_iff initialise_next_iff (by simp [hopen])
  · exact decodeOfEncode .initialise

/-! ### What the accesses hold (R183) -/

/-- The bus cycles of an access (R147, R148). -/
def accessCycles (v : Word) : Access → List Cycle
  | .write i d => [.idxw i, .datw d]
  | .read i => [.idxw i, .datr v]
  | .waitMs _ => []

/-- The register write of an access. -/
def accessWrites : Access → List (Word × Word)
  | .write i d => [(i, d)]
  | .read _ => []
  | .waitMs _ => []

/-- The wait of an access. -/
def accessWaits : Access → List Word
  | .write _ _ => []
  | .read _ => []
  | .waitMs n => [n]

/-- With the lines outputs an access holds its cycles, and leaves them outputs (R143). -/
theorem cyclesFrom_accessEvents {p : Pins} (h : p.dir = .val .out) (v : Word) (a : Access) :
    cyclesFrom p (accessEvents v a) = accessCycles v a ∧ (p.run (accessEvents v a)).dir = .val .out := by
  cases a with
  | write i d => exact ⟨cyclesFrom_writeTrace h i d, h⟩
  | read i => exact ⟨cyclesFrom_readTrace h i v, rfl⟩
  | waitMs n => exact ⟨rfl, h⟩

theorem cyclesFrom_accessesEvents {p : Pins} (h : p.dir = .val .out) (v : Word) (as : List Access) :
    cyclesFrom p (accessesEvents v as) = as.flatMap (accessCycles v) := by
  induction as generalizing p with
  | nil => rfl
  | cons a as ih =>
    obtain ⟨hcycles, hdir⟩ := cyclesFrom_accessEvents h v a
    rw [accessesEvents_cons, cyclesFrom_append, hcycles, ih hdir, List.flatMap_cons]

/-- The cycles of accesses hold their register writes, whatever was selected before (R37). -/
theorem pairWrites_accessCycles (sel : Option Word) (v : Word) (as : List Access) :
    pairWrites sel (as.flatMap (accessCycles v)) = as.flatMap accessWrites := by
  induction as generalizing sel with
  | nil => rfl
  | cons a as ih => cases a <;> simp [accessCycles, accessWrites, pairWrites, ih]

theorem milliWaits_accessesEvents (v : Word) (as : List Access) :
    milliWaits (accessesEvents v as) = as.flatMap accessWaits := by
  induction as with
  | nil => rfl
  | cons a as ih =>
    have hwaits : milliWaits (accessEvents v a) = accessWaits a := by cases a <;> rfl
    rw [accessesEvents_cons, milliWaits_append, hwaits, ih, List.flatMap_cons]

theorem accessWrites_writeAccesses (ws : List (Word × Word)) : (writeAccesses ws).flatMap accessWrites = ws := by
  simp [List.flatMap_map, accessWrites]

theorem accessWaits_writeAccesses (ws : List (Word × Word)) : (writeAccesses ws).flatMap accessWaits = [] := by
  simp [List.flatMap_map, accessWaits]

theorem reads_writeAccesses (v : Word) (ws : List (Word × Word)) :
    ((writeAccesses ws).flatMap (accessCycles v)).filter Cycle.isRead = [] := by
  simp [List.flatMap_map, accessCycles, Cycle.isRead, List.filter_flatMap]

theorem fullWindowWrites_length (c : Config) :
    (fullWindowWrites c).length = 4 + (if c.windowWritesPointer then 2 else 0) := by
  rw [fullWindowWrites, windowWrites]
  split <;> rfl

/-- The 37 + P + T register writes of R183. -/
theorem panelAccesses_writes_length (c : Config) :
    ((panelAccesses c).flatMap accessWrites).length =
      37 + (if c.windowWritesPointer then 2 else 0) + c.initTail.length := by
  simp only [panelAccesses, poweringAccesses, List.flatMap_append, List.flatMap_cons, List.flatMap_nil,
    accessWrites_writeAccesses, accessWrites]
  simp [turningWrites, tailWrites, driverWrites, lowPowerWrites, gammaWrites, fullWindowWrites_length]
  omega

theorem panelAccesses_reads (c : Config) (v : Word) :
    ((panelAccesses c).flatMap (accessCycles v)).filter Cycle.isRead = [.datr v] := by
  simp only [panelAccesses, poweringAccesses, List.flatMap_append, List.flatMap_cons, List.flatMap_nil, List.filter_append,
    reads_writeAccesses, accessCycles]
  rfl

theorem panelAccesses_waits (c : Config) :
    (panelAccesses c).flatMap accessWaits = [130, 50, 200, 50, 50, 50] := by
  simp only [panelAccesses, poweringAccesses, List.flatMap_append, List.flatMap_cons, List.flatMap_nil,
    accessWaits_writeAccesses, accessWaits]
  rfl

/-- Settles O40: the events are those of a fixed list of accesses, made with the lines outputs. -/
theorem initialiseCountsItsAccesses : Obligations.InitializeCountsItsAccesses := by
  intro s t h
  obtain ⟨-, -, rfl⟩ := initialise_next_iff.1 h
  obtain ⟨id, hpanel⟩ := initialisePanel_spec s
  have htrace : (initialisePanel s).trace = s.trace ++ initialiseTrace s.cfg id := by
    rw [hpanel, afterTransactions_trace]
  have hgained : gained s { initialisePanel s with lifecycle := .initialised, result := .val (.ok .unit) } =
      initialiseTrace s.cfg id := gained_of_append htrace
  have hlit : cyclesFrom s.pins litEvents = [] := rfl
  have hwaits : milliWaits litEvents = [] := rfl
  rw [hgained, initialiseTrace_eq, cyclesFrom_append, hlit, List.nil_append, cyclesFrom_accessesEvents rfl,
    pairWrites_accessCycles, milliWaits_append, hwaits, milliWaits_accessesEvents, panelAccesses_waits]
  exact ⟨panelAccesses_writes_length s.cfg, ⟨id, panelAccesses_reads s.cfg id⟩, rfl⟩

/-! ### Construction (R181) -/

/-- Settles O38: the inversion lemma asks for the phase before construction. -/
theorem constructTakesOwnership : Obligations.ConstructTakesOwnership := by
  refine ⟨?_, ?_, ?_, rfl⟩
  · exact fun s hphase => construct_next_iff.2 ⟨hphase, rfl⟩
  · intro s hphase
    refine refuses_iff.2 fun t hnext => ?_
    obtain ⟨hphase', -⟩ := construct_next_iff.1 hnext
    exact hphase hphase'
  · exact decodeOfEncode .construct

/-! ### The window and the pointer (R184 to R186) -/

/-- Settles O41: the inversion lemma asks for a free bus, and `setPointer_eq` is the whole effect. -/
theorem setPointerWritesThePair : Obligations.SetPointerWritesThePair := by
  refine ⟨?_, ?_, ?_, fun _ _ => rfl⟩
  · exact fun x y s hcons hfree => setPointer_next_iff.2 ⟨hcons, hfree, by rw [setPointer_eq]; rfl⟩
  · exact fun x y s _ hbusy => refuses_of_next_iff setPointer_next_iff hbusy
  · exact fun x y => decodeOfEncode (.setPointer x y)

/-- Settles O42: the inversion lemma asks for an ordered window and a free bus, and `setWindow_eq` is the whole effect. -/
theorem setWindowWritesTheWindow : Obligations.SetWindowWritesTheWindow := by
  refine ⟨?_, ?_, ?_, ?_, fun _ _ _ _ => rfl⟩
  · exact fun xs ys xe ye s hcons hfree hx hy =>
      setWindow_next_iff.2 ⟨hcons, ⟨hx, hy⟩, hfree, by rw [setWindow_eq]; rfl⟩
  · intro xs ys xe ye s _ hdisordered
    refine refuses_iff.2 fun t hnext => ?_
    obtain ⟨-, ⟨hx, hy⟩, -⟩ := setWindow_next_iff.1 hnext
    omega
  · intro xs ys xe ye s _ hbusy
    refine refuses_iff.2 fun t hnext => ?_
    obtain ⟨-, -, hfree, -⟩ := setWindow_next_iff.1 hnext
    exact hbusy hfree
  · exact fun xs ys xe ye => decodeOfEncode (.setWindow xs ys xe ye)

/-- Settles O43: the inversion lemma asks for a free bus, and `resetWindow_eq` reads no rotation. -/
theorem resetWindowWritesTheFullExtent : Obligations.ResetWindowWritesTheFullExtent := by
  refine ⟨?_, ?_, ?_, rfl⟩
  · exact fun s hcons hfree => resetWindow_next_iff.2 ⟨hcons, hfree, by rw [resetWindow_eq]; rfl⟩
  · exact fun s _ hbusy => refuses_of_next_iff resetWindow_next_iff hbusy
  · exact decodeOfEncode .resetWindow

/-! ### A pixel (R187) -/

/-- Inside the logical rectangle a pixel is the pointer at the mapped point, then the colour. -/
theorem drawPixel_of_within {p : Point} {s : State} (h : p.within (logicalSize s.cfg s.rot)) (colour : Word) :
    let q := toNativePoint s.rot p (nativeSize s.cfg)
    drawPixel p colour s =
      (writeRegister s.cfg.reg.gram colour (setPointer (coordWord q.x) (coordWord q.y) s)).2 := by
  rw [drawPixel, mapPoint_of_mapped ((mapped_native_iff s.cfg s.rot p).2 h)]

/-- Settles O44: the mapped pointer pair and the colour are three register writes in a row. -/
theorem drawPixelWritesOnePixel : Obligations.DrawPixelWritesOnePixel := by
  refine ⟨?_, ?_, ?_, fun _ _ _ => rfl⟩
  · intro x y colour s hinit hfree hwithin q
    refine drawPixel_next_iff.2 ⟨hinit, hfree, ?_⟩
    rw [drawPixel_of_within hwithin, setPointer_eq, writeRegister_eq]
    simp [afterBus, idleWith_idleWith, writesTrace, q]
  · exact fun x y colour s hbusy => refuses_of_next_iff drawPixel_next_iff hbusy
  · exact fun x y colour => decodeOfEncode (.drawPixel x y colour)

/-! ### A fill (R188, R189, R193) -/

/-- Settles O48: the count rounds the product up to the burst of four. -/
theorem fillCountIsTheNextMultipleOfFour : Obligations.FillCountIsTheNextMultipleOfFour := by
  intro c w h
  rw [fillCount_eq]
  generalize w * h = n
  exact ⟨by omega, by omega, fun m hm hn => by omega⟩

theorem fillCount_pos (c : Config) (w h : Nat) : 0 < fillCount c (w + 1) (h + 1) := by
  obtain ⟨-, hle, -⟩ := fillCountIsTheNextMultipleOfFour c (w + 1) (h + 1)
  exact lt_of_lt_of_le (Nat.mul_pos w.succ_pos h.succ_pos) hle

/-- Settles O45: inside the logical rectangle the window is the mapped one; then the burst and the full window. -/
theorem fillRectangleStreamsTheColour : Obligations.FillRectangleStreamsTheColour := by
  refine ⟨?_, ?_, ?_⟩
  · intro tlx tly brx bry colour s hinit hfree hx hy hwithin q n
    refine fillRectangle_next_iff.2 ⟨hinit, .inr ⟨hx, hy, hfree, ?_⟩⟩
    rw [fillRectangle, fillWindow_of_within hwithin, setWindow_eq, writeRegisterBurst_eq, resetWindow_eq]
    simp only [afterBus, idleWith_idleWith, List.append_assoc, q, n]
    rfl
  · intro tlx tly brx bry colour s hbusy hx hy
    refine refuses_iff.2 fun t hnext => ?_
    obtain ⟨-, ⟨hdisordered, -⟩ | ⟨-, -, hfree, -⟩⟩ := fillRectangle_next_iff.1 hnext
    · omega
    · exact hbusy hfree
  · exact fun tlx tly brx bry colour => decodeOfEncode (.fillRectangle tlx tly brx bry colour)

theorem pairWrites_replicate_datw (i d : Word) (k : Nat) :
    pairWrites (some i) (List.replicate k (.datw d)) = List.replicate k (i, d) := by
  induction k with
  | zero => rfl
  | succ k ih => rw [List.replicate_succ, pairWrites, ih, List.replicate_succ]

/-- A burst writes its word as often as its count says (R146). -/
theorem pairWrites_burstTrace {p : Pins} (h : p.dir = .val .out) (sel : Option Word) (i d : Word) {n : Nat} (hn : 0 < n) :
    pairWrites sel (cyclesFrom p (burstTrace i d n)) = List.replicate n (i, d) := by
  obtain ⟨k, rfl⟩ := Nat.exists_eq_add_of_le' hn
  rw [cyclesFrom_burstTrace h, pairWrites, pairWrites_replicate_datw]

/-- Settles O49: the register writes of the three parts, each made with the lines outputs. -/
theorem fillWritesCountWordsAndRestoresWindow : Obligations.FillWritesCountWordsAndRestoresWindow := by
  intro tlx tly brx bry colour s t hnext hok
  obtain ⟨-, ⟨-, rfl⟩ | ⟨-, -, ⟨-, hdir⟩, rfl⟩⟩ := fillRectangle_next_iff.1 hnext
  · cases hok
  · obtain ⟨xs, ys, xe, ye, a, b, k, hfill⟩ := fillRectangle_spec (Point.ofWords tlx tly) (Point.ofWords brx bry) colour s
    refine ⟨xs, ys, xe, ye, a, b, ?_⟩
    rw [hfill, gained_of_append rfl]
    simp only [cyclesFrom_append, pairWrites_append, run_append, run_burstTrace]
    rw [pairWrites_writesTrace hdir, pairWrites_burstTrace, pairWrites_writesTrace]
    · rfl
    · rw [idleWith_dir, run_writesTrace_dir, hdir]
    · rw [run_writesTrace_dir, hdir]
    · exact fillCount_pos ..

end Sys2Proof.Proofs
end

section
/-! PROOF. The exceptions family (spec/60_exceptions.md): what each lifecycle phase refuses (R100, R181, R222), and the two
errors, which change nothing but RESULT (R210 to R214, R219). -/

namespace Sys2Proof.Proofs

open Sys2Proof.Machine Sys2Proof.Safety Sys2Proof.Laws

/-! ### What each lifecycle phase refuses (R100, R181, R222) -/

theorem whenConstructed_refuses {s : State} {k : Answer} (h : s.lifecycle = .unconstructed) :
    Refuses (whenConstructed s k) :=
  require_refuses (not_not_intro h)

theorem whenInitialised_refuses {s : State} {k : Answer} (h : s.lifecycle ≠ .initialised) :
    Refuses (whenInitialised s k) :=
  require_refuses_of fun _ => require_refuses h

/-- The meaning of every instruction but CONSTRUCT begins with the precondition that PDBD is constructed. -/
theorem exec_refuses_of_unconstructed {i : Instr} {s : State} (h : s.lifecycle = .unconstructed) (hi : i ≠ .construct) :
    Refuses (exec i s) := by
  cases i with
  | construct => exact absurd rfl hi
  | _ => exact whenConstructed_refuses h

/-- Settles O10: drawing and SET_ROTATION begin with the stronger precondition, a completed INITIALIZE. -/
theorem lifecycleAdmitsByPhase : Obligations.LifecycleAdmitsByPhase := by
  obtain ⟨-, hconstruct, -⟩ := constructTakesOwnership
  have hphase {s : State} (h : s.lifecycle = .constructed) : s.lifecycle ≠ .initialised := by simp [h]
  refine ⟨fun i s => exec_refuses_of_unconstructed, hconstruct, ?_, ?_, ?_⟩
  · exact fun s x y colour h => whenInitialised_refuses (hphase h)
  · exact fun s a b c d e h => whenInitialised_refuses (hphase h)
  · exact fun s r h => whenInitialised_refuses (hphase h)

/-! ### The two errors (R210 to R214, R219) -/

/-- Settles O47: the inversion lemma raises the error without asking for a free bus. -/
theorem invalidWindowHasNoEffect : Obligations.InvalidWindowHasNoEffect :=
  fun _ _ _ _ _ _ hinit hdisordered => fillRectangle_next_iff.2 ⟨hinit, .inl ⟨hdisordered, rfl⟩⟩

/-- Only numbers of 4 or more name no rotation (R161). -/
theorem le_of_ofId_eq_none {n : Nat} (h : Rotation.ofId n = none) : 4 ≤ n :=
  not_lt.1 fun hn => ofId_ne_none hn h

/-- The answer, where it is a next state, reports an `Ok` result. -/
def EndsOk (a : Answer) : Prop := ∀ t, a = .next t → ∃ v, t.result = .val (.ok v)

theorem EndsOk.conclude (v : Value) (s : State) : EndsOk (conclude (.ok v) s) := by
  intro t h
  rw [conclude_next_iff.1 h]
  exact ⟨v, rfl⟩

theorem EndsOk.require {p : Prop} [Decidable p] {r : Refusal} {k : Answer} (hk : EndsOk k) : EndsOk (require p r k) :=
  fun t h => hk t (require_next_iff.1 h).2

/-- The instructions with a rule that raises an error (R213, R214). -/
def canRaise : Instr → Prop
  | .setRotation _ => True
  | .rotationFromId _ => True
  | .fillRectangle _ _ _ _ _ => True
  | _ => False

/-- The meaning of every instruction without such a rule is some preconditions before an `Ok` result. -/
theorem EndsOk.exec {i : Instr} (hi : ¬ canRaise i) (s : State) : EndsOk (exec i s) := by
  cases i with
  | setRotation | rotationFromId | fillRectangle => exact absurd trivial hi
  | _ =>
    repeat apply EndsOk.require
    exact EndsOk.conclude _ _

/-- Settles O52: the three instructions that can raise an error do so in one case of their inversion lemma, with nothing else
changed; every other instruction ends `Ok`. -/
theorem errorsAreTwoAndPrecise : Obligations.ErrorsAreTwoAndPrecise := by
  intro i s t k h herr
  by_cases hi : canRaise i
  · cases i with
    | setRotation a =>
      obtain ⟨-, ⟨hid, rfl⟩ | ⟨r, -, -, rfl⟩⟩ := setRotation_next_iff.1 h <;> cases herr
      exact ⟨rfl, .inr ⟨rfl, a, .inl rfl, le_of_ofId_eq_none hid⟩⟩
    | rotationFromId a =>
      obtain ⟨-, ⟨hid, rfl⟩ | ⟨r, -, rfl⟩⟩ := rotationFromId_next_iff.1 h <;> cases herr
      exact ⟨rfl, .inr ⟨rfl, a, .inr rfl, le_of_ofId_eq_none hid⟩⟩
    | fillRectangle a b c d e =>
      obtain ⟨-, ⟨hdisordered, rfl⟩ | ⟨-, -, -, rfl⟩⟩ := fillRectangle_next_iff.1 h <;> cases herr
      exact ⟨rfl, .inl ⟨rfl, a, b, c, d, e, rfl, hdisordered⟩⟩
    | _ => exact hi.elim
  · obtain ⟨v, hok⟩ := EndsOk.exec hi s t h
    simp [hok] at herr

end Sys2Proof.Proofs
end

section
/-! PROOF. The reset and hazards family (spec/70_reset_and_hazards.md): no command but TXN_BEGIN leaves the chip selected
(R126, R247), and the least time of each bus command by its delay steps (R252, R253). -/

namespace Sys2Proof.Proofs

open Sys2Proof.Machine Sys2Proof.Safety Sys2Proof.Laws

variable {s t : State}

/-! ### The chip is deselected between commands (R126, R247) -/

/-- Only TXN_BEGIN opens a transaction and leaves it open: the one row of the items' writers that O53 needs (R33). -/
theorem eq_txnBegin_of_opens {i : Instr} (hexec : exec i s = .next t) (hclosed : s.txnOpen = false)
    (hopen : t.txnOpen = true) : i = .txnBegin := by
  obtain ⟨-, -, -, -, -, -, -, -, -, -, -, -, -, hopens, -⟩ := eachItemHasItsWriters i s t hexec
  exact (hopens hopen).resolve_left (by simp [hclosed])

/-- Settles O53: the bus discipline, which every instruction keeps, has the chip deselected where no transaction is open. -/
theorem commandsEndDeselected : Obligations.CommandsEndDeselected := by
  intro i s t hdisc hexec hclosed hi
  have hopen : t.txnOpen = false := eq_false_of_ne_true fun h => hi (eq_txnBegin_of_opens hexec hclosed h)
  obtain ⟨hcs, -⟩ := (disciplined_exec hdisc hexec).closed hopen
  exact ⟨hopen, hcs⟩

/-! ### The time of the traces (R252, R253) -/

/-- A step that only appends events takes their time. -/
theorem traceMicros_gained {es : List Event} (h : t.trace = s.trace ++ es) : traceMicros (gained s t) = traceMicros es := by
  rw [gained_of_append h]

/-- Setup, index strobe, gap, data strobe and hold: a microsecond each (R147). -/
theorem traceMicros_writeTrace (i d : Word) : traceMicros (writeTrace i d) = 5 := by
  simp [traceMicros, writeTrace, eventMicros]

/-- A read waits where a write does (R148). -/
theorem traceMicros_readTrace (i v : Word) : traceMicros (readTrace i v) = 5 := by
  simp [traceMicros, readTrace, eventMicros]

/-- A window is four register writes, or six with the pointer pair (R184). -/
theorem traceMicros_windowWrites (c : Config) (xs ys xe ye px py : Word) :
    traceMicros (writesTrace (windowWrites c xs ys xe ye px py)) = if c.windowWritesPointer then 30 else 20 := by
  rw [traceMicros_writesTrace, windowWrites]
  split <;> rfl

/-- An access takes five microseconds if it accesses a register, else its wait. -/
theorem traceMicros_accessEvents (v : Word) (a : Access) :
    traceMicros (accessEvents v a) =
      5 * ((accessWrites a).length + ((accessCycles v a).filter Cycle.isRead).length) +
        1000 * ((accessWaits a).map BitVec.toNat).sum := by
  cases a with
  | write i d => exact traceMicros_writeTrace i d
  | read i => exact traceMicros_readTrace i v
  | waitMs n => simp [accessEvents, traceMicros, eventMicros, accessWrites, accessCycles, accessWaits]

/-- Accesses take five microseconds for each of their writes and reads, and their waits. -/
theorem traceMicros_accessesEvents (v : Word) (as : List Access) :
    traceMicros (accessesEvents v as) =
      5 * ((as.flatMap accessWrites).length + ((as.flatMap (accessCycles v)).filter Cycle.isRead).length) +
        1000 * ((as.flatMap accessWaits).map BitVec.toNat).sum := by
  induction as with
  | nil => rfl
  | cons a as ih =>
    rw [accessesEvents_cons, traceMicros_append, traceMicros_accessEvents, ih]
    simp only [List.flatMap_cons, List.length_append, List.filter_append, List.map_append, List.sum_append]
    omega

/-- The waits of R183 come to 530 ms, and there is one access more than its writes: the identification read. -/
theorem traceMicros_initialiseTrace (c : Config) (id : Word) :
    traceMicros (initialiseTrace c id) =
      530000 + 5 * (38 + (if c.windowWritesPointer then 2 else 0) + c.initTail.length) := by
  have hlit : traceMicros litEvents = 0 := rfl
  have hwaits : ([130, 50, 200, 50, 50, 50].map (BitVec.toNat (w := 16))).sum = 530 := rfl
  rw [initialiseTrace_eq, traceMicros_append, hlit, traceMicros_accessesEvents, panelAccesses_writes_length,
    panelAccesses_reads, panelAccesses_waits, hwaits, List.length_singleton]
  omega

/-! ### The time of the commands (R253) -/

/-- Each primitive, and each end of a transaction, has the one delay step of its rule (R124, R125, R141 to R144). -/
theorem micros_primitive {i : Instr} (hexec : exec i s = .next t)
    (hi : i = .txnBegin ∨ i = .txnEnd ∨ (∃ a, i = .selectRegister a) ∨ (∃ a, i = .writeDataWord a) ∨ i = .readDataWord ∨
      i = .wrPulse) : traceMicros (gained s t) = 1 := by
  obtain rfl | rfl | ⟨a, rfl⟩ | ⟨a, rfl⟩ | rfl | rfl := hi
  · obtain ⟨-, -, rfl⟩ := txnBegin_next_iff.1 hexec
    rw [txnBegin_eq, traceMicros_gained rfl]
    rfl
  · obtain ⟨-, -, rfl⟩ := txnEnd_next_iff.1 hexec
    rw [txnEnd_eq, traceMicros_gained rfl]
    rfl
  · obtain ⟨-, -, -, rfl⟩ := selectRegister_next_iff.1 hexec
    rw [selectRegister_eq, traceMicros_gained rfl]
    rfl
  · obtain ⟨-, -, -, rfl⟩ := writeDataWord_next_iff.1 hexec
    rw [writeDataWord_eq, traceMicros_gained rfl]
    rfl
  · obtain ⟨-, -, rfl⟩ := readDataWord_next_iff.1 hexec
    rw [readDataWord_eq, traceMicros_gained rfl]
    rfl
  · obtain ⟨-, -, -, -, rfl⟩ := wrPulse_next_iff.1 hexec
    rw [wrPulse_eq, traceMicros_gained rfl]
    rfl

theorem micros_writeRegister {a b : Word} (hexec : exec (.writeRegister a b) s = .next t) :
    traceMicros (gained s t) = 5 := by
  obtain ⟨-, -, rfl⟩ := writeRegister_next_iff.1 hexec
  rw [traceMicros_gained (t := afterBus _ _ _) rfl, traceMicros_writeTrace]

theorem micros_readRegister {a : Word} (hexec : exec (.readRegister a) s = .next t) : traceMicros (gained s t) = 5 := by
  obtain ⟨-, -, rfl⟩ := readRegister_next_iff.1 hexec
  obtain ⟨v, hread⟩ := readRegister_spec a s
  rw [hread, traceMicros_gained rfl, traceMicros_readTrace]

theorem micros_setRotation {a : Word} (hexec : exec (.setRotation a) s = .next t)
    (hok : t.result ≠ .val (.err .invalidRotationId)) : traceMicros (gained s t) = 5 := by
  obtain ⟨-, ⟨-, rfl⟩ | ⟨r, -, -, rfl⟩⟩ := setRotation_next_iff.1 hexec
  · exact absurd rfl hok
  · rw [applyRotation_eq, traceMicros_gained rfl, traceMicros_writeTrace]

/-- A burst has its first word in the time of a register write, and a strobe for each further one (R146). -/
theorem micros_writeRegisterBurst {a b : Word} {n : Count} (hexec : exec (.writeRegisterBurst a b n) s = .next t) :
    traceMicros (gained s t) = 4 + n.toNat := by
  obtain ⟨-, hn, -, rfl⟩ := writeRegisterBurst_next_iff.1 hexec
  rw [traceMicros_gained (t := afterBus _ _ _) rfl, traceMicros_burstTrace]
  omega

theorem micros_setPointer {a b : Word} (hexec : exec (.setPointer a b) s = .next t) : traceMicros (gained s t) = 10 := by
  obtain ⟨-, -, rfl⟩ := setPointer_next_iff.1 hexec
  rw [setPointer_eq, traceMicros_gained rfl, traceMicros_writesTrace]
  rfl

theorem micros_setWindow {a b c d : Word} (hexec : exec (.setWindow a b c d) s = .next t) :
    traceMicros (gained s t) = if s.cfg.windowWritesPointer then 30 else 20 := by
  obtain ⟨-, -, -, rfl⟩ := setWindow_next_iff.1 hexec
  rw [setWindow_eq, traceMicros_gained rfl, traceMicros_windowWrites]

theorem micros_resetWindow (hexec : exec .resetWindow s = .next t) :
    traceMicros (gained s t) = if s.cfg.windowWritesPointer then 30 else 20 := by
  obtain ⟨-, -, rfl⟩ := resetWindow_next_iff.1 hexec
  rw [resetWindow_eq, traceMicros_gained rfl, fullWindowWrites, traceMicros_windowWrites]

/-- Three register writes, wherever the point lies (R187, R171). -/
theorem micros_drawPixel {a b c : Word} (hexec : exec (.drawPixel a b c) s = .next t) :
    traceMicros (gained s t) = 15 := by
  obtain ⟨hinit, hfree, -⟩ := drawPixel_next_iff.1 hexec
  obtain ⟨x, y, k, hdraw⟩ := exec_drawPixel_spec hinit hfree a b c
  obtain rfl := Host.Outcome.next.inj (hdraw.symm.trans hexec)
  rw [traceMicros_gained rfl, traceMicros_writesTrace]
  rfl

/-- Two windows and a burst of the fill count, which is never 0, wherever the corners lie (R188, R171). -/
theorem micros_fillRectangle {a b c d e : Word} (hexec : exec (.fillRectangle a b c d e) s = .next t)
    (hok : t.result ≠ .val (.err .invalidWindow)) :
    traceMicros (gained s t) =
      (if s.cfg.windowWritesPointer then 64 else 44) + fillCount s.cfg (c.toNat - a.toNat + 1) (d.toNat - b.toNat + 1) := by
  obtain ⟨-, ⟨-, rfl⟩ | ⟨-, -, -, rfl⟩⟩ := fillRectangle_next_iff.1 hexec
  · exact absurd rfl hok
  · obtain ⟨xs, ys, xe, ye, x, y, k, hfill⟩ := fillRectangle_spec (Point.ofWords a b) (Point.ofWords c d) e s
    have hpos := fillCount_pos s.cfg (c.toNat - a.toNat) (d.toNat - b.toNat)
    rw [hfill, traceMicros_gained rfl, traceMicros_append, traceMicros_append, fullWindowWrites, traceMicros_windowWrites,
      traceMicros_windowWrites, traceMicros_burstTrace]
    simp only [Point.ofWords]
    split <;> omega

theorem micros_initialise (hexec : exec .initialise s = .next t) :
    traceMicros (gained s t) =
      530000 + 5 * (38 + (if s.cfg.windowWritesPointer then 2 else 0) + s.cfg.initTail.length) := by
  obtain ⟨-, -, rfl⟩ := initialise_next_iff.1 hexec
  obtain ⟨id, hpanel⟩ := initialisePanel_spec s
  rw [hpanel, traceMicros_gained rfl, traceMicros_initialiseTrace]

/-- Settles O55: row by row, the time of the events each command appends; the two errors are excluded where they can arise. -/
theorem minimumDurations : Obligations.MinimumDurations := by
  intro i s t hexec hwindow hrotation
  refine ⟨micros_primitive hexec, ?_, ?_, ?_, ?_, ?_, ?_, ?_⟩
  · rintro (⟨a, b, rfl⟩ | ⟨a, rfl⟩ | ⟨a, rfl⟩)
    · exact micros_writeRegister hexec
    · exact micros_readRegister hexec
    · exact micros_setRotation hexec hrotation
  · rintro a b n rfl
    exact micros_writeRegisterBurst hexec
  · rintro ⟨a, b, rfl⟩
    exact micros_setPointer hexec
  · rintro (⟨a, b, c, d, rfl⟩ | rfl)
    · exact micros_setWindow hexec
    · exact micros_resetWindow hexec
  · rintro ⟨a, b, c, rfl⟩
    exact micros_drawPixel hexec
  · rintro a b c d e rfl
    exact micros_fillRectangle hexec hwindow
  · rintro rfl
    exact micros_initialise hexec

end Sys2Proof.Proofs
end
